-- ==== Sys2Proof/Word.lean ====
section
/-! DEFINITION. The units of the line: a byte, and a register address of the peer (R8, R7). -/

namespace Sys2Proof

/-- A byte: an unsigned 8-bit value (R8). -/
abbrev Byte := BitVec 8

/-- A register address of the peer: 16 bits (R7 "register address width", R39). -/
abbrev Addr := BitVec 16

end Sys2Proof
end

