-- ==== Sys2Proof/Config.lean ====
section
/-! DEFINITION. The block's parameters (R7), the plain data its operands are made of (R88, R89, R95,
R98 to R101), what the environment decides at one interaction, and the values the spec leaves open,
each an opaque constant with no body. -/

namespace Sys2Proof

/-- The encoding of a register (R88): a closed sum carrying its size and, for a scaled value, its divisor. -/
inductive Kind where
  | signedInt (size : Nat)
  | unsignedInt (size : Nat)
  | scaledFloat (size divisor : Nat)
  deriving DecidableEq, Repr

/-- The size a kind carries (R88). -/
def Kind.size : Kind → Nat
  | .signedInt s => s
  | .unsignedInt s => s
  | .scaledFloat s _ => s

/-- One entry of `REGISTRY` (R101): name, address, size, kind. -/
structure SensorDef where
  name : String
  addr : Addr
  size : Nat
  kind : Kind
  deriving DecidableEq, Repr

/-- A number the host passes to be written (R95): an integer, a finite real given exactly as a ratio,
or a non-finite value (log 20). -/
inductive HostNum where
  | int (z : Int)
  | ratio (num : Int) (den : Nat)
  | nonFinite
  deriving DecidableEq, Repr

/-- A decoded value (R89): `Int(z)`, or `Scaled(z, d)`, which stands for the exact rational z / d. -/
inductive Value where
  | int (z : Int)
  | scaled (z : Int) (d : Nat)
  deriving DecidableEq, Repr

/-- The texts the block produces (R98, R99), carried as an enumeration as R100 allows. -/
inductive Text where
  | off
  | warmWater
  | heatingAndWarmWater
  | undefinedPos
  | heating
  | midPosition
  | unknown
  deriving DecidableEq, Repr

/-- The exact character string of a text (R98, R99, R100). -/
def Text.str : Text → String
  | .off => "OFF"
  | .warmWater => "Warm Water"
  | .heatingAndWarmWater => "Heating & Warm Water"
  | .undefinedPos => "Undefined"
  | .heating => "Heating"
  | .midPosition => "Mid Position"
  | .unknown => "UNKNOWN"

/-- What a name maps to in a sweep's map: a decoded value, or a derived text (R22, R106). -/
inductive Field where
  | num (v : Value)
  | text (t : Text)
  deriving DecidableEq, Repr

/-- A map from sensor name to field, as a list in the order the names were first assigned (R22; log 22). -/
abbrev SweepMap := List (String × Field)

/-- What the environment decides at one step (log 1): the bytes the peer appends to `rxq` before the
step's interaction ends and after it (R34; log 2), how many bytes a `TxWrite` accepts (R30, `TX_ACCEPT`),
whether a `PortOpen` succeeds (R104, D12). -/
structure Draw where
  /-- Appended before the step's `TxWrite` or `RxRead` ends. -/
  arrive : List Byte
  accept : Nat
  portOk : Bool
  /-- Appended after that, before the next step begins. -/
  late : List Byte
  deriving DecidableEq, Repr, Inhabited

namespace Config

/-- `START_BYTE` (R7). -/
def startByte : Byte := 0x41
/-- `MAX_TX_PAYLOAD` (R7). -/
def maxTxPayload : Nat := 100
/-- `WAKE_ATTEMPTS` (R7). -/
def wakeAttempts : Nat := 10
/-- `WAKE_BYTE` (R7). -/
def wakeByte : Byte := 0x04
/-- `WAKE_ACK_BYTE` (R7). -/
def wakeAckByte : Byte := 0x05
/-- `SYNC_CMD` (R7). -/
def syncCmd : List Byte := [0x16, 0x00, 0x00]
/-- `ACK_BYTE` (R7): also the sync acknowledge (R52). -/
def ackByte : Byte := 0x06
/-- `NAK_BYTE` (R7). -/
def nakByte : Byte := 0x15
/-- `MAX_WRITE_DATA` (R7, 90_conflicts.md C3). -/
def maxWriteData : Nat := 95

/-- Free value: the environment's n-th draw where the state's script fixes none (I1 to I4; log 1). -/
opaque freeDraw : Nat → Draw

/-- Free value: the open parameter `REGISTRY` (R101, D19; log 12) before its well-formedness is asked. -/
opaque rawRegistry : List SensorDef

/-- Free value: the integer a decoder gives for a byte list that is not exactly `size` bytes of a legal
size, for which R91 to R93 state no result (log 18). The first argument tells signed from unsigned. -/
opaque freeDecode : Bool → List Byte → Nat → Int

/-- Free value: what the encoder answers for a finite number at a size outside 1 to 4, for which R95
states no result (log 19); `none` stands for `ValueOutOfRange`. -/
opaque freeEncode : HostNum → Nat → Option (List Byte)

/-- Free value: what the 8-bit register `req_size` holds after a write of n > 255 bytes (R21, R86; log 17). -/
opaque freeReqSize : Nat → Byte

/-- Free value: what `req_data`, of 0 to 95 bytes, holds after a write of more than 95 bytes (R21, R86;
log 17), before it is cut to that bound. -/
opaque freeReqData : List Byte → List Byte

/-- The open host-side parameter `FLOAT_CONVERT` (R7, R89, D16): the host's binary float for z / d,
as a 64-bit pattern (log 31). No operation of the block uses it. -/
opaque floatConvert : Int → Nat → BitVec 64

end Config
end Sys2Proof
end

