-- ==== Sys2Proof/Syntax.lean ====
section
/-! DEFINITION. The instructions: one constructor for each of the 36 rows of spec/opcode_table.json,
in the table's order. The first twelve are messages on the line, the next four host commands, the
rest internal operations of the sequencer. -/

namespace Sys2Proof

/-- The instruction set (30_encoding.md; spec/opcode_table.json). -/
inductive Instr where
  /-- `WAKE`, block to peer: 04 (R51, R68). -/
  | wake
  /-- `WAKE_ACK`, peer to block: 05 (R51, R68). -/
  | wakeAck
  /-- `SYNC`, block to peer: 16 00 00 (R51, R69). -/
  | sync
  /-- `SYNC_ACK`, peer to block: 06 in `HS_SYNC_RX` (R52, R69). -/
  | syncAck
  /-- `ACK`, peer to block: 06 in `RX_ACK` (R52, R75). -/
  | ack
  /-- `NAK`, peer to block: 15 in `RX_ACK` (R75). -/
  | nak
  /-- `REQ_FRAME`, block to peer: 41 L payload CK (R53, R74). -/
  | reqFrame (payload : List Byte)
  /-- `RESP_FRAME`, peer to block: 41 L payload CK, the checksum byte as received (R53, R76 to R79). -/
  | respFrame (payload : List Byte) (ck : Byte)
  /-- `READ_REQ` payload: 00 01 AH AL SZ (R58). -/
  | readReq (addr : Addr) (size : Byte)
  /-- `READ_RSP` payload: 01 01 AH AL SZ data (R59). -/
  | readRsp (addr : Addr) (size : Byte) (data : List Byte)
  /-- `WRITE_REQ` payload: 00 02 AH AL n data (R60). -/
  | writeReq (addr : Addr) (data : List Byte)
  /-- `WRITE_RSP` payload: 01 02 AH AL n (R61). -/
  | writeRsp (addr : Addr) (n : Byte)
  /-- Host command `OPEN(path)` (R104). -/
  | openCmd (path : String)
  /-- Host command `GET_MEASUREMENTS` (R105). -/
  | getMeasurements
  /-- Host command `WRITE_VALUE(name, value)` (R107). -/
  | writeValue (name : String) (value : HostNum)
  /-- Host command `CLOSE` (R108). -/
  | closeCmd
  /-- `HANDSHAKE()` (R67). -/
  | handshake
  /-- `CK_CLEAR()` (R73). -/
  | ckClear
  /-- `CK_ADD(b)` (R73). -/
  | ckAdd (b : Byte)
  /-- `CK_RUN(L, p)` (R73). -/
  | ckRun (len : Byte) (p : List Byte)
  /-- `BUILD(p)` (R74). -/
  | build (p : List Byte)
  /-- `PARSE()` (R75 to R79). -/
  | parse
  /-- `EXECUTE(p)` (R82). -/
  | execute (p : List Byte)
  /-- `REG_READ(addr, size)` (R84): size is any integer, legal 1 to 4. -/
  | regRead (addr : Addr) (size : Int)
  /-- `READ_CHECK(rsp)` (R85). -/
  | readCheck (rsp : List Byte)
  /-- `REG_WRITE(addr, data)` (R86). -/
  | regWrite (addr : Addr) (data : List Byte)
  /-- `WRITE_CHECK(rsp)` (R87). -/
  | writeCheck (rsp : List Byte)
  /-- `DECODE(kind, b)` (R94). -/
  | decode (kind : Kind) (b : List Byte)
  /-- `DECODE_SIGNED(b, size)` (R91). -/
  | decodeSigned (b : List Byte) (size : Nat)
  /-- `DECODE_UNSIGNED(b, size)` (R92). -/
  | decodeUnsigned (b : List Byte) (size : Nat)
  /-- `DECODE_SCALED(b, size, divisor)` (R93). -/
  | decodeScaled (b : List Byte) (size divisor : Nat)
  /-- `ENCODE_UNSIGNED(v, size)` (R95). -/
  | encodeUnsigned (v : HostNum) (size : Nat)
  /-- `MODE_TEXT(v)` (R98). -/
  | modeText (v : Value)
  /-- `VALVE_TEXT(v)` (R99). -/
  | valveText (v : Value)
  /-- `LOOKUP(name)` (R102). -/
  | lookup (name : String)
  /-- `ADD_DERIVED(m)` (R106). -/
  | addDerived (m : SweepMap)
  deriving DecidableEq, Repr

end Sys2Proof
end

