-- ==== Sys2Proof/WellFormed.lean ====
section
/-! DEFINITION. Well-formedness of operands, of the registry and of instructions, as Bools: the
operand ranges that the rules of each instruction state. -/

namespace Sys2Proof

/-- A legal register size: 1 to 4 (R88). -/
def sizeOk (size : Nat) : Bool := decide (1 ≤ size ∧ size ≤ 4)

/-- A kind is well-formed: size 1 to 4 and, for a scaled value, a divisor of at least 1 (R88, R101). -/
def Kind.wf : Kind → Bool
  | .signedInt s => sizeOk s
  | .unsignedInt s => sizeOk s
  | .scaledFloat s d => sizeOk s && decide (1 ≤ d)

/-- The two names a registry may not use (R106, D19): the derived text fields'. -/
def reservedNames : List String := ["mode_text", "three_way_valve_pos_text"]

/-- One registry entry is well-formed (R101, D19): legal size, the kind carries that size, a positive
divisor, and not the name of a derived field. The 16-bit address is so by its type. -/
def SensorDef.wf (d : SensorDef) : Bool :=
  sizeOk d.size && decide (d.kind.size = d.size) && d.kind.wf && !(reservedNames.contains d.name)

/-- No name twice (R101). -/
def uniqueNames : List String → Bool
  | [] => true
  | n :: ns => !(ns.contains n) && uniqueNames ns

/-- `REGISTRY` is well-formed (R101, D19). -/
def registryWf (r : List SensorDef) : Bool :=
  uniqueNames (r.map SensorDef.name) && r.all SensorDef.wf

/-- The open parameter `REGISTRY` as R129 requires it of the environment: well-formed (log 12). -/
def Config.registry : List SensorDef :=
  if registryWf Config.rawRegistry then Config.rawRegistry else []

/-- A decoded value is well-formed: a positive divisor (R89). -/
def Value.wf : Value → Bool
  | .int _ => true
  | .scaled _ d => decide (1 ≤ d)

/-- A host number given as a ratio has a positive denominator (log 20). -/
def HostNum.wf : HostNum → Bool
  | .int _ => true
  | .ratio _ den => decide (1 ≤ den)
  | .nonFinite => true

/-- The values of a sweep's map are well-formed. -/
def Field.wf : Field → Bool
  | .num v => v.wf
  | .text _ => true

/-- Well-formedness of an instruction: its operands lie in the ranges its rule states. -/
def Instr.wf : Instr → Bool
  | .wake => true
  | .wakeAck => true
  | .sync => true
  | .syncAck => true
  | .ack => true
  | .nak => true
  | .reqFrame payload => decide (payload.length ≤ 100)
  | .respFrame payload _ => decide (payload.length ≤ 255)
  | .readReq _ size => sizeOk size.toNat
  | .readRsp _ size data => sizeOk size.toNat && decide (data.length = size.toNat)
  | .writeReq _ data => decide (data.length ≤ 95)
  | .writeRsp _ n => decide (n.toNat ≤ 95)
  | .openCmd _ => true
  | .getMeasurements => true
  | .writeValue _ value => value.wf
  | .closeCmd => true
  | .handshake => true
  | .ckClear => true
  | .ckAdd _ => true
  | .ckRun _ _ => true
  | .build _ => true
  | .parse => true
  | .execute _ => true
  | .regRead _ _ => true
  | .readCheck _ => true
  | .regWrite _ _ => true
  | .writeCheck _ => true
  | .decode kind b => kind.wf && decide (b.length = kind.size)
  | .decodeSigned b size => sizeOk size && decide (b.length = size)
  | .decodeUnsigned b size => sizeOk size && decide (b.length = size)
  | .decodeScaled b size divisor => sizeOk size && decide (b.length = size) && decide (1 ≤ divisor)
  | .encodeUnsigned v size => v.wf && sizeOk size
  | .modeText v => v.wf
  | .valveText v => v.wf
  | .lookup _ => true
  | .addDerived m => uniqueNames (m.map Prod.fst) && m.all (fun e => e.2.wf)

end Sys2Proof
end

