-- ==== Sys2Proof/Decode.lean ====
section
/-! DEFINITION. The decoder and the encoder of the twelve messages of the line (30_encoding.md), the
checksum that a frame carries, and the opcode table's numbering of their bits. Host commands and
internal operations have no binary encoding (D2). -/

namespace Sys2Proof

/-- `hi(a) = a[15:8]` (R8). -/
def hi (a : Addr) : Byte := a.extractLsb' 8 8

/-- `lo(a) = a[7:0]` (R8). -/
def lo (a : Addr) : Byte := a.extractLsb' 0 8

/-- The address of a payload's bytes AH and AL: `AH`·256 + `AL` (R62). -/
def addrOf (ah al : Byte) : Addr := ah ++ al

/-- A count as a length byte: its low 8 bits (R62). -/
def byteOfNat (n : Nat) : Byte := BitVec.ofNat 8 n

/-- `sum(l)`, the integer sum of the bytes (R9). -/
def byteSum (l : List Byte) : Nat := (l.map BitVec.toNat).sum

/-- `checksum(L, p) = (L + sum(p)) mod 256` (R72). -/
def checksum (len : Byte) (p : List Byte) : Byte := BitVec.ofNat 8 ((len.toNat + byteSum p) % 256)

/-- The frame of a payload: `41 L payload CK` (R53). -/
def frameOf (p : List Byte) : List Byte :=
  [Config.startByte, byteOfNat p.length] ++ p ++ [checksum (byteOfNat p.length) p]

/-- `READ_REQ`'s payload (R58). -/
def readReqPayload (addr : Addr) (size : Byte) : List Byte := [0x00, 0x01, hi addr, lo addr, size]

/-- `READ_RSP`'s payload (R59). -/
def readRspPayload (addr : Addr) (size : Byte) (data : List Byte) : List Byte :=
  [0x01, 0x01, hi addr, lo addr, size] ++ data

/-- `WRITE_REQ`'s payload, with the length byte given (R60). -/
def writeReqPayload (addr : Addr) (n : Byte) (data : List Byte) : List Byte :=
  [0x00, 0x02, hi addr, lo addr, n] ++ data

/-- `WRITE_RSP`'s payload (R61). -/
def writeRspPayload (addr : Addr) (n : Byte) : List Byte := [0x01, 0x02, hi addr, lo addr, n]

/-- Where bytes stand when they are decoded: the same byte means different messages in different
phases (R52, R63), and a payload stands inside a frame. -/
inductive Slot where
  | wakeTx
  | wakeRx
  | syncTx
  | syncRx
  | txFrame
  | rxAck
  | rxFrame
  | payload
  deriving DecidableEq, Repr

/-- Why bytes are no message of their slot (R64: nothing is skipped, every other byte is named). -/
inductive Reject where
  /-- No byte, or the bytes end before the message does. -/
  | missingByte
  /-- More bytes than the message has. -/
  | extraByte
  /-- Not `WAKE` in `HS_WAKE_TX`. -/
  | notWake (b : Byte)
  /-- Not `WAKE_ACK` in `HS_WAKE_RX`. -/
  | notWakeAck (b : Byte)
  /-- Not the three bytes of `SYNC`. -/
  | notSync (l : List Byte)
  /-- Not `SYNC_ACK` in `HS_SYNC_RX`. -/
  | notSyncAck (b : Byte)
  /-- Neither `ACK` nor `NAK` in `RX_ACK`. -/
  | notAckNorNak (b : Byte)
  /-- The frame does not start with 0x41. -/
  | badStart (b : Byte)
  /-- The bytes after `LEN` are not `LEN` + 1 in number. -/
  | badLength (got expected : Nat)
  /-- A request frame longer than 100 payload bytes. -/
  | tooLong (len : Nat)
  /-- A request frame whose checksum byte is not its checksum. -/
  | badChecksum (got expected : Byte)
  /-- `MSG` and `ACC` select no payload (R63). -/
  | noPayload (msg acc : Byte)
  /-- The payload's `SZ` does not fit its data bytes. -/
  | badSize (size : Byte) (data : Nat)
  deriving DecidableEq, Repr

/-- What the decoder answers: an instruction, or a rejection by name. -/
inductive Decoded where
  | instr (i : Instr)
  | reject (r : Reject)
  deriving DecidableEq, Repr

/-- The instruction of a decoding, if it is one. -/
def Decoded.instr? : Decoded → Option Instr
  | .instr i => some i
  | .reject _ => none

/-- Exactly one byte, judged by `f`. -/
def decodeOne (f : Byte → Decoded) : List Byte → Decoded
  | [] => .reject .missingByte
  | [b] => f b
  | _ :: _ :: _ => .reject .extraByte

/-- A frame's start, length and body (R53, R54): `LEN` alone says how many bytes follow. -/
def decodeFrame (f : List Byte → Byte → Decoded) : List Byte → Decoded
  | [] => .reject .missingByte
  | [b] => if b = Config.startByte then .reject .missingByte else .reject (.badStart b)
  | b :: len :: body =>
    if b ≠ Config.startByte then .reject (.badStart b)
    else if body.length ≠ len.toNat + 1 then .reject (.badLength body.length (len.toNat + 1))
    else f (body.take len.toNat) (body.getD len.toNat 0)

/-- A frame the block sends (R53, R55): at most 100 payload bytes, and the right checksum. DESIGN CHOICE
(log 43): the payload's `MSG` and `ACC` are not looked at, so one that R63 and R65 say is never sent decodes. -/
def decodeReqFrame (payload : List Byte) (ck : Byte) : Decoded :=
  if payload.length > Config.maxTxPayload then .reject (.tooLong payload.length)
  else if ck ≠ checksum (byteOfNat payload.length) payload then
    .reject (.badChecksum ck (checksum (byteOfNat payload.length) payload))
  else .instr (.reqFrame payload)

/-- A register payload: `MSG` and `ACC` select it (R57, R63), `SZ` must fit its data bytes (R58 to R61).
DESIGN CHOICE (log 40): nothing else is asked of `SZ`, so a read's `SZ` outside 1 to 4 and a write's above
95, which R58 to R61 do not define, select their messages too. -/
def decodePayload : List Byte → Decoded
  | msg :: acc :: ah :: al :: sz :: data =>
    if msg = 0x00 ∧ acc = 0x01 then
      if data = [] then .instr (.readReq (addrOf ah al) sz) else .reject (.badSize sz data.length)
    else if msg = 0x01 ∧ acc = 0x01 then
      if data.length = sz.toNat then .instr (.readRsp (addrOf ah al) sz data)
      else .reject (.badSize sz data.length)
    else if msg = 0x00 ∧ acc = 0x02 then
      if data.length = sz.toNat then .instr (.writeReq (addrOf ah al) data)
      else .reject (.badSize sz data.length)
    else if msg = 0x01 ∧ acc = 0x02 then
      if data = [] then .instr (.writeRsp (addrOf ah al) sz) else .reject (.badSize sz data.length)
    else .reject (.noPayload msg acc)
  | _ => .reject .missingByte

/-- The decoder: the message that bytes are where they stand, or why they are none (R51, R63, R64). -/
def decode : Slot → List Byte → Decoded
  | .wakeTx, l => decodeOne (fun b => if b = Config.wakeByte then .instr .wake else .reject (.notWake b)) l
  | .wakeRx, l =>
    decodeOne (fun b => if b = Config.wakeAckByte then .instr .wakeAck else .reject (.notWakeAck b)) l
  | .syncTx, l => if l = Config.syncCmd then .instr .sync else .reject (.notSync l)
  | .syncRx, l =>
    decodeOne (fun b => if b = Config.ackByte then .instr .syncAck else .reject (.notSyncAck b)) l
  | .txFrame, l => decodeFrame decodeReqFrame l
  | .rxAck, l =>
    decodeOne (fun b => if b = Config.ackByte then .instr .ack
      else if b = Config.nakByte then .instr .nak else .reject (.notAckNorNak b)) l
  | .rxFrame, l => decodeFrame (fun p ck => .instr (.respFrame p ck)) l
  | .payload, l => decodePayload l

/-- Where a message stands; `none` for what has no binary encoding (R63, D2). -/
def Instr.slot : Instr → Option Slot
  | .wake => some .wakeTx
  | .wakeAck => some .wakeRx
  | .sync => some .syncTx
  | .syncAck => some .syncRx
  | .ack => some .rxAck
  | .nak => some .rxAck
  | .reqFrame _ => some .txFrame
  | .respFrame _ _ => some .rxFrame
  | .readReq _ _ => some .payload
  | .readRsp _ _ _ => some .payload
  | .writeReq _ _ => some .payload
  | .writeRsp _ _ => some .payload
  | .openCmd _ => none
  | .getMeasurements => none
  | .writeValue _ _ => none
  | .closeCmd => none
  | .handshake => none
  | .ckClear => none
  | .ckAdd _ => none
  | .ckRun _ _ => none
  | .build _ => none
  | .parse => none
  | .execute _ => none
  | .regRead _ _ => none
  | .readCheck _ => none
  | .regWrite _ _ => none
  | .writeCheck _ => none
  | .decode _ _ => none
  | .decodeSigned _ _ => none
  | .decodeUnsigned _ _ => none
  | .decodeScaled _ _ _ => none
  | .encodeUnsigned _ _ => none
  | .modeText _ => none
  | .valveText _ => none
  | .lookup _ => none
  | .addDerived _ => none

/-- The encoder: the bytes of a message, first on the line first (R36, R51, R53, R58 to R61); `none`
for what has no binary encoding (D2). -/
def encode : Instr → Option (List Byte)
  | .wake => some [0x04]
  | .wakeAck => some [0x05]
  | .sync => some [0x16, 0x00, 0x00]
  | .syncAck => some [0x06]
  | .ack => some [0x06]
  | .nak => some [0x15]
  | .reqFrame payload => some (frameOf payload)
  | .respFrame payload ck => some ([0x41, byteOfNat payload.length] ++ payload ++ [ck])
  | .readReq addr size => some (readReqPayload addr size)
  | .readRsp addr size data => some (readRspPayload addr size data)
  | .writeReq addr data => some (writeReqPayload addr (byteOfNat data.length) data)
  | .writeRsp addr n => some (writeRspPayload addr n)
  | .openCmd _ => none
  | .getMeasurements => none
  | .writeValue _ _ => none
  | .closeCmd => none
  | .handshake => none
  | .ckClear => none
  | .ckAdd _ => none
  | .ckRun _ _ => none
  | .build _ => none
  | .parse => none
  | .execute _ => none
  | .regRead _ _ => none
  | .readCheck _ => none
  | .regWrite _ _ => none
  | .writeCheck _ => none
  | .decode _ _ => none
  | .decodeSigned _ _ => none
  | .decodeUnsigned _ _ => none
  | .decodeScaled _ _ _ => none
  | .encodeUnsigned _ _ => none
  | .modeText _ => none
  | .valveText _ => none
  | .lookup _ => none
  | .addDerived _ => none

/-- The first slot of a list in which bytes are a message. -/
def decodeFirst (l : List Byte) : List Slot → Option Instr
  | [] => none
  | sl :: rest =>
    match (decode sl l).instr? with
    | some i => some i
    | none => decodeFirst l rest

/-- Byte k of a table word, counted from its least significant byte. -/
def tableByte (w k : Nat) : Byte := BitVec.ofNat 8 (w / 256 ^ k)

/-- One control byte or the start of a frame (formats `CTL1` and `FRAME`): a frame's operand bytes,
to which the table gives no bits, are zeros. -/
def decodeTableByte (b : Byte) : Option Instr :=
  match decodeFirst [b] [.wakeTx, .wakeRx, .rxAck, .syncRx] with
  | some i => some i
  | none => decodeFirst [b, 0, 0] [.txFrame, .rxFrame]

/-- The instruction the decoder reads from a table word of `nbits` bits (log 23, 24): the table's
numbers have the byte that is first on the line most significant, so a 24-bit word is the three bytes
of `SYNC`, a 16-bit word the payload bytes `MSG` and `ACC` with zeros after them, and an 8-bit word a
control byte or a frame's start byte. A 16-bit word that selects no payload is read as the control
byte of its low half (the reader's stray field of row NAK). -/
def decodeTableWord (nbits w : Nat) : Option Instr :=
  if nbits ≤ 8 then decodeTableByte (tableByte w 0)
  else if nbits ≤ 16 then
    match (decode .payload [tableByte w 1, tableByte w 0, 0, 0, 0]).instr? with
    | some i => some i
    | none => decodeTableByte (tableByte w 0)
  else (decode .syncTx [tableByte w 2, tableByte w 1, tableByte w 0]).instr?

end Sys2Proof
end

