-- ==== Sys2Proof/Machine/State.lean ====
section
/-! DEFINITION. The machine's state: every piece of state the spec gives the block (R14 to R29, R30,
R31), as plain data, with the model's own bookkeeping beside it, and its reset value (R29, R127). -/

namespace Sys2Proof.Machine

/-- The sequencer's position inside an operation (R14). -/
inductive Phase where
  | idle
  | openPort
  | hsWakeTx
  | hsWakeRx
  | hsSyncTx
  | hsSyncRx
  | txFlush
  | txFrame
  | rxAck
  | rxStart
  | rxLen
  | rxBody
  | check
  | decode
  | closePort
  deriving DecidableEq, Repr

/-- `link_state` (R15). -/
inductive LinkState where
  | closed
  | unestablished
  | ready
  deriving DecidableEq, Repr

/-- `req_kind` (R21). -/
inductive ReqKind where
  | read
  | write
  deriving DecidableEq, Repr

/-- The error kinds (R111, R112), in the order of the code table. -/
inductive ErrKind where
  | noHandshakeResponse
  | syncRejected
  | portOpenFailed
  | writeIncomplete
  | noAck
  | nakReceived
  | unexpectedAckByte
  | missingFrameStart
  | missingFrameSize
  | frameTooShort
  | checksumMismatch
  | invalidReadResponse
  | wrongLength
  | wrongAddress
  | wrongMessageType
  | wrongAccessType
  | wrongSize
  | payloadTooLarge
  | unknownSensor
  | notWritable
  | valueOutOfRange
  | invalidSize
  | notReady
  | sensorReadError
  deriving DecidableEq, Repr

/-- An error with its context (R25, R113): a field its kind does not use is `none`. -/
structure Fail where
  kind : ErrKind
  got : Option Int := none
  expected : Option Int := none
  sensor : Option String := none
  deriving DecidableEq, Repr

/-- The error register's record (R25): an error, and the nested cause that only `SensorReadError` has,
one level deep (R118). -/
structure Err where
  fail : Fail
  cause : Option Fail := none
  deriving DecidableEq, Repr

/-- What an operation returns when it succeeds (R11). -/
inductive OkVal where
  | unit
  | bytes (l : List Byte)
  | value (v : Value)
  | text (t : Text)
  | sensor (d : Option SensorDef)
  | map (m : SweepMap)
  deriving DecidableEq, Repr

/-- `Ok(v)` or `Err(e)` (R11, R26). -/
inductive Result where
  | ok (v : OkVal)
  | err (e : Err)
  deriving DecidableEq, Repr

/-- One interaction with the line or the port (R10, R45), with its answer. -/
inductive Event where
  /-- `TxWrite(l) -> c` (R30). -/
  | tx (l : List Byte) (c : Nat)
  /-- `RxRead(n) -> r` (R32); r shorter than n is a timeout. -/
  | rx (n : Nat) (r : List Byte)
  /-- `RxFlush()` (R33). -/
  | flush
  /-- `PortOpen(path) -> ok | fail` (R104). -/
  | portOpen (path : String) (ok : Bool)
  /-- `PortClose()` (R104, R108). -/
  | portClose
  deriving DecidableEq, Repr

/-- A command on the host command port (R28). -/
inductive HostCmd where
  | openCmd (path : String)
  | getMeasurements
  | writeValue (name : String) (value : HostNum)
  | closeCmd
  deriving DecidableEq, Repr

/-- Which operation runs above the present phase (log 5): the caller that the pseudocode's
sub-operations return to (R10, R114). -/
inductive Task where
  /-- No operation runs. -/
  | idle
  /-- `OPEN(path)` (R104). -/
  | opening (path : String)
  /-- `OPEN` whose handshake failed with `e`: the port is still to be released (R104). -/
  | releasing (e : Fail)
  /-- `GET_MEASUREMENTS` (R105). -/
  | sweeping
  /-- `WRITE_VALUE` (R107). -/
  | writing
  /-- `CLOSE` (R108). -/
  | closing
  /-- `HANDSHAKE` on its own (R67). -/
  | handshake
  /-- `PARSE` on its own (R75). -/
  | parse
  /-- `EXECUTE(p)` on its own (R82). -/
  | execute (p : List Byte)
  /-- `REG_READ` on its own (R84). -/
  | regRead
  /-- `REG_WRITE` on its own (R86). -/
  | regWrite
  deriving DecidableEq, Repr

/-- Why the machine stops. -/
inductive Fault where
  /-- A host command executed while `busy` = 1: it "has no move in the model" (R103, I10 stuck). Raised
  by the four host commands' meanings only; `step` takes a command only at `IDLE` and never raises it.
  Safe: the model stops where the spec gives no move (log 8). -/
  | commandWhileBusy
  deriving DecidableEq, Repr

/-- Why an instruction has no meaning. -/
inductive Refusal where
  /-- An instruction whose meaning is not written yet, by its mnemonic. Raised by no arm of `exec`. Safe. -/
  | notModelled (mnemonic : String)
  deriving DecidableEq, Repr

/-- The state of the block and of what the environment will do. -/
structure State where
  /-- `phase` (R14). -/
  phase : Phase
  /-- `link_state` (R15). -/
  link : LinkState
  /-- `port_held` (R16). -/
  portHeld : Bool
  /-- `wake_count` (R17). -/
  wakeCount : Nat
  /-- The variable `last` of the wake loop (R68; log 37). -/
  wakeLast : Option Byte
  /-- `acc` (R18). -/
  acc : Byte
  /-- `txbuf` (R19). -/
  txbuf : List Byte
  /-- `ack_byte` (R20). -/
  ackByte : Byte
  /-- `start_byte` (R20). -/
  startByte : Byte
  /-- `declared_size` (R20). -/
  declaredSize : Byte
  /-- `rxbuf` (R20). -/
  rxbuf : List Byte
  /-- `req_kind` (R21). -/
  reqKind : ReqKind
  /-- `req_addr` (R21). -/
  reqAddr : Addr
  /-- `req_size` (R21). -/
  reqSize : Byte
  /-- `req_data`, 0 to 95 bytes (R21; log 17). -/
  reqData : List Byte
  /-- The operand `data` of the `REG_WRITE` that runs, of any length (R86; log 17). -/
  callData : List Byte
  /-- `sweep_idx` (R22). -/
  sweepIdx : Nat
  /-- `sweep_map` (R22). -/
  sweepMap : SweepMap
  /-- `err` (R25). -/
  err : Option Err
  /-- `last_result` (R26). -/
  lastResult : Option Result
  /-- The configuration port: `REGISTRY` (R27, R28, R101; log 12). -/
  registry : List SensorDef
  /-- The operation that runs (log 5). -/
  task : Task
  /-- The variable `rsp` of the register client: a transaction's payload whose echo check is to come, or
  whose data is to be decoded (R84, R86; log 6). -/
  rsp : Option (List Byte)
  /-- The result of the last internal operation run on its own (R11; log 14). -/
  opResult : Option Result
  /-- The receive FIFO `rxq` (R31). -/
  rxq : List Byte
  /-- Every interaction so far, oldest first (R45; log 39). -/
  trace : List Event
  /-- The commands the host will issue, in order (R13, R28; log 8). -/
  hostq : List HostCmd
  /-- Environment draws fixed in advance (log 1). -/
  script : List Draw
  /-- How many free draws have been taken (log 1). -/
  draws : Nat
  /-- When the reset input will be asserted (R128; log 9): the steps until it next is, then the steps from
  each time to the one after it; empty if it never will be. -/
  resetIn : List Nat
  deriving DecidableEq, Repr

/-- The machine right after reset (R29, R127). The response and request registers have no reset value in
the spec and start at zero or empty (log 10); `registry` is the open parameter (log 12); the rest are
the model's own fields (log 11). -/
def State.reset : State where
  phase := .idle
  link := .closed
  portHeld := false
  wakeCount := 0
  wakeLast := none
  acc := 0
  txbuf := []
  ackByte := 0
  startByte := 0
  declaredSize := 0
  rxbuf := []
  reqKind := .read
  reqAddr := 0
  reqSize := 0
  reqData := []
  callData := []
  sweepIdx := 0
  sweepMap := []
  err := none
  lastResult := none
  registry := Config.registry
  task := .idle
  rsp := none
  opResult := none
  rxq := []
  trace := []
  hostq := []
  script := []
  draws := 0
  resetIn := []

end Sys2Proof.Machine
end

