-- ==== Sys2Proof/Machine/Flags.lean ====
section
/-! DEFINITION. The block keeps no condition-code flags (R23). What stands here instead: the status
outputs and other views of the state (R20, R24, R30), the numeric error codes and classes (R111, R112),
the error contexts (R113), and the echo checks of a reply (R85, R87). -/

namespace Sys2Proof.Machine

/-- `busy` = (`phase` ≠ `IDLE`) (R24). -/
def State.busy (s : State) : Bool := decide (s.phase ≠ .idle)

/-- `rx_payload` is `rxbuf[0..declared_size)` (R20). -/
def State.rxPayload (s : State) : List Byte := s.rxbuf.take s.declaredSize.toNat

/-- The bytes one interaction put on the line (R30): the accepted ones, and no others. -/
def Event.sent : Event → List Byte
  | .tx l c => l.take c
  | .rx _ _ => []
  | .flush => []
  | .portOpen _ _ => []
  | .portClose => []

/-- The line's transmit log (R30): the accepted bytes of every `TxWrite`, in order. -/
def State.txLog (s : State) : List Byte := s.trace.flatMap Event.sent

/-- `err.code` of a kind (R112). -/
def ErrKind.code : ErrKind → Byte
  | .noHandshakeResponse => 0x10
  | .syncRejected => 0x11
  | .portOpenFailed => 0x12
  | .writeIncomplete => 0x20
  | .noAck => 0x21
  | .nakReceived => 0x22
  | .unexpectedAckByte => 0x23
  | .missingFrameStart => 0x24
  | .missingFrameSize => 0x25
  | .frameTooShort => 0x26
  | .checksumMismatch => 0x27
  | .invalidReadResponse => 0x30
  | .wrongLength => 0x31
  | .wrongAddress => 0x32
  | .wrongMessageType => 0x33
  | .wrongAccessType => 0x34
  | .wrongSize => 0x35
  | .payloadTooLarge => 0x40
  | .unknownSensor => 0x41
  | .notWritable => 0x42
  | .valueOutOfRange => 0x43
  | .invalidSize => 0x44
  | .notReady => 0x45
  | .sensorReadError => 0x50

/-- The numeric code of the error register (R25, R112): 0x00 means no error. -/
def State.errCode (s : State) : Byte :=
  match s.err with
  | none => 0x00
  | some e => e.fail.kind.code

/-- The class of an error kind (R111). -/
inductive ErrClass where
  | connection
  | transport
  | protocol
  | validation
  | session
  deriving DecidableEq, Repr

/-- The class a kind belongs to (R111, R112). -/
def ErrKind.errClass : ErrKind → ErrClass
  | .noHandshakeResponse => .connection
  | .syncRejected => .connection
  | .portOpenFailed => .connection
  | .writeIncomplete => .transport
  | .noAck => .transport
  | .nakReceived => .transport
  | .unexpectedAckByte => .transport
  | .missingFrameStart => .transport
  | .missingFrameSize => .transport
  | .frameTooShort => .transport
  | .checksumMismatch => .transport
  | .invalidReadResponse => .protocol
  | .wrongLength => .protocol
  | .wrongAddress => .protocol
  | .wrongMessageType => .protocol
  | .wrongAccessType => .protocol
  | .wrongSize => .protocol
  | .payloadTooLarge => .validation
  | .unknownSensor => .validation
  | .notWritable => .validation
  | .valueOutOfRange => .validation
  | .invalidSize => .validation
  | .notReady => .validation
  | .sensorReadError => .session

/-- A byte as the number an error's context holds. -/
def byteVal (b : Byte) : Int := (b.toNat : Int)

/-- `NoHandshakeResponse(got = last, expected = 0x05)` (R68, R113). -/
def failNoHandshake (last : Option Byte) : Fail :=
  { kind := .noHandshakeResponse, got := last.map byteVal, expected := some 0x05 }

/-- `SyncRejected(got, expected = 0x06)` (R69, R113). -/
def failSync (got : Option Byte) : Fail :=
  { kind := .syncRejected, got := got.map byteVal, expected := some 0x06 }

/-- `PortOpenFailed()` (R104, R113). -/
def failPortOpen : Fail := { kind := .portOpenFailed }

/-- `WriteIncomplete(got = c, expected = len(f))` (R82, R113). -/
def failWriteIncomplete (c len : Nat) : Fail :=
  { kind := .writeIncomplete, got := some (c : Int), expected := some (len : Int) }

/-- `NoAck(expected = 0x06)` (R75, R113). -/
def failNoAck : Fail := { kind := .noAck, expected := some 0x06 }

/-- `NakReceived(got = 0x15)`, expected 0x06 (R75, R113). -/
def failNak : Fail := { kind := .nakReceived, got := some 0x15, expected := some 0x06 }

/-- `UnexpectedAckByte(got)`, expected 0x06 (R75, R113). -/
def failUnexpectedAck (b : Byte) : Fail :=
  { kind := .unexpectedAckByte, got := some (byteVal b), expected := some 0x06 }

/-- `MissingFrameStart(got?, expected = 0x41)` (R76, R113). -/
def failFrameStart (got : Option Byte) : Fail :=
  { kind := .missingFrameStart, got := got.map byteVal, expected := some 0x41 }

/-- `MissingFrameSize()` (R77, R113). -/
def failFrameSize : Fail := { kind := .missingFrameSize }

/-- `FrameTooShort(gotCount, expectedCount)` (R78, R113). -/
def failTooShort (got expected : Nat) : Fail :=
  { kind := .frameTooShort, got := some (got : Int), expected := some (expected : Int) }

/-- `ChecksumMismatch(got = received, expected = computed)` (R79, R113). -/
def failChecksum (got expected : Byte) : Fail :=
  { kind := .checksumMismatch, got := some (byteVal got), expected := some (byteVal expected) }

/-- `InvalidReadResponse()` (R85, R113). -/
def failReadResponse : Fail := { kind := .invalidReadResponse }

/-- `PayloadTooLarge(got = len(p), expected = 100)` (R74, R113). -/
def failTooLarge (len : Nat) : Fail :=
  { kind := .payloadTooLarge, got := some (len : Int), expected := some 100 }

/-- `InvalidSize(got = size)` (R84, R113). -/
def failSize (size : Int) : Fail := { kind := .invalidSize, got := some size }

/-- `ValueOutOfRange()` as the encoder raises it (R95). -/
def failRange : Fail := { kind := .valueOutOfRange }

/-- `UnknownSensor(sensor = name)`, `NotWritable(sensor = name)`, `ValueOutOfRange(sensor = name)` (R107, R113). -/
def failSensor (kind : ErrKind) (name : String) : Fail := { kind := kind, sensor := some name }

/-- `NotReady()` (R103, R113). -/
def failNotReady : Fail := { kind := .notReady }

/-- `SensorReadError(sensor, cause)` (R105, R113). -/
def errSensorRead (sensor : Option String) (cause : Fail) : Err :=
  { fail := { kind := .sensorReadError, sensor := sensor }, cause := some cause }

/-- `READ_CHECK(rsp)` (R85): the error it raises, or `none` when every echo agrees. -/
def readCheck (addr : Addr) (size : Byte) (rsp : List Byte) : Option Fail :=
  if rsp.length ≠ 5 + size.toNat then some failReadResponse
  else if rsp.getD 0 0 ≠ 0x01 then some failReadResponse
  else if rsp.getD 1 0 ≠ 0x01 then some failReadResponse
  else if rsp.getD 2 0 ≠ hi addr ∨ rsp.getD 3 0 ≠ lo addr then some failReadResponse
  else if rsp.getD 4 0 ≠ size then some failReadResponse
  else none

/-- `WRITE_CHECK(rsp)` (R87): the first mismatch in the order length, address, message type, access
type, size, or `none`. -/
def writeCheck (addr : Addr) (size : Byte) (rsp : List Byte) : Option Fail :=
  if rsp.length ≠ 5 then
    some { kind := .wrongLength, got := some (rsp.length : Int), expected := some 5 }
  else if rsp.getD 2 0 ≠ hi addr ∨ rsp.getD 3 0 ≠ lo addr then
    some { kind := .wrongAddress, got := some (byteVal (rsp.getD 2 0) * 256 + byteVal (rsp.getD 3 0)),
           expected := some (addr.toNat : Int) }
  else if rsp.getD 0 0 ≠ 0x01 then
    some { kind := .wrongMessageType, got := some (byteVal (rsp.getD 0 0)), expected := some 0x01 }
  else if rsp.getD 1 0 ≠ 0x02 then
    some { kind := .wrongAccessType, got := some (byteVal (rsp.getD 1 0)), expected := some 0x02 }
  else if rsp.getD 4 0 ≠ size then
    some { kind := .wrongSize, got := some (byteVal (rsp.getD 4 0)), expected := some (byteVal size) }
  else none

end Sys2Proof.Machine
end

