-- ==== Sys2Proof/Machine/Operands.lean ====
section
/-! DEFINITION. The operand forms: little-endian register bytes to values and back (R90 to R95), the
text translators (R98, R99), the registry's lookup (R102), and a sweep's map (R105, R106). None of them
reads or writes the state. -/

namespace Sys2Proof.Machine

/-- `U(b) = Σ b[i] · 256^i`: byte 0 is the least significant (R90). -/
def leNat : List Byte → Nat
  | [] => 0
  | b :: bs => b.toNat + 256 * leNat bs

/-- `sext_N(v)`: v when v[N−1] = 0, else v − 2^N (R8). -/
def sext (n v : Nat) : Int := if v.testBit (n - 1) then (v : Int) - 2 ^ n else (v : Int)

/-- The integer of `SignedInt` and of `ScaledFloat`: `sext_{8·size}(U(b))` (R91, R93). A byte list that is
not exactly `size` bytes, 1 to 4, has no stated result: a free value (log 18). -/
def signedVal (b : List Byte) (size : Nat) : Int :=
  if sizeOk size ∧ b.length = size then sext (8 * size) (leNat b) else Config.freeDecode true b size

/-- The integer of `UnsignedInt`: `U(b)` (R92; log 18). -/
def unsignedVal (b : List Byte) (size : Nat) : Int :=
  if sizeOk size ∧ b.length = size then (leNat b : Int) else Config.freeDecode false b size

/-- `DECODE(kind, b)` (R94). -/
def decodeKind : Kind → List Byte → Value
  | .signedInt size, b => .int (signedVal b size)
  | .unsignedInt size, b => .int (unsignedVal b size)
  | .scaledFloat size divisor, b => .scaled (signedVal b size) divisor

/-- `trunc(v)` toward zero, `none` for a value that is not finite (R8, R95). -/
def truncNum : HostNum → Option Int
  | .int z => some z
  | .ratio num den => if den = 0 then none else some (num.tdiv (den : Int))
  | .nonFinite => none

/-- The `size` low bytes of t, little-endian (R95). -/
def leBytes : Nat → Nat → List Byte
  | 0, _ => []
  | size + 1, t => byteOfNat t :: leBytes size (t / 256)

/-- `ENCODE_UNSIGNED(v, size)` (R95): `none` is `ValueOutOfRange`. A size outside 1 to 4 has no stated
result for a finite value: a free value (log 19). -/
def encodeUnsigned (v : HostNum) (size : Nat) : Option (List Byte) :=
  match truncNum v with
  | none => none
  | some t =>
    if sizeOk size then
      if t < 0 ∨ t > 2 ^ (8 * size) - 1 then none else some (leBytes size t.toNat)
    else Config.freeEncode v size

/-- Whether a value is the number k, by exact numeric value (R98, D18): z / d = k. With divisor 0 it is
no number (log 21). -/
def numEq : Value → Int → Bool
  | .int z, k => decide (z = k)
  | .scaled z d, k => decide (d ≠ 0 ∧ z = k * (d : Int))

/-- `MODE_TEXT(v)` (R98). -/
def modeTextOf (v : Value) : Text :=
  if numEq v 0 then .off
  else if numEq v 1 then .warmWater
  else if numEq v 2 then .heatingAndWarmWater
  else .unknown

/-- `VALVE_TEXT(v)` (R99). -/
def valveTextOf (v : Value) : Text :=
  if numEq v 0 then .undefinedPos
  else if numEq v 1 then .heating
  else if numEq v 2 then .midPosition
  else if numEq v 3 then .warmWater
  else .unknown

/-- A translator on a map's entry: an entry that is a text already is no decoded number, so it is "any
other value" (R98, R99). -/
def fieldText (f : Value → Text) : Field → Text
  | .num v => f v
  | .text _ => .unknown

/-- `LOOKUP(name)`: the entry with that name (R102). -/
def lookupName (r : List SensorDef) (name : String) : Option SensorDef :=
  r.find? (fun d => decide (d.name = name))

/-- `m[name]` (R105, R106). -/
def mapGet : SweepMap → String → Option Field
  | [], _ => none
  | (n, v) :: m, name => if n = name then some v else mapGet m name

/-- `m[name] <- v`: the entry replaced in its place, or added at the end (log 22). -/
def mapSet : SweepMap → String → Field → SweepMap
  | [], name, v => [(name, v)]
  | (n, w) :: m, name, v => if n = name then (n, v) :: m else (n, w) :: mapSet m name v

/-- One derived text field: added only when its source entry is in the map (R106). -/
def addText (f : Value → Text) (src dst : String) (m : SweepMap) : SweepMap :=
  match mapGet m src with
  | none => m
  | some x => mapSet m dst (.text (fieldText f x))

/-- `ADD_DERIVED(m)` (R106). -/
def addDerived (m : SweepMap) : SweepMap :=
  addText valveTextOf "three_way_valve_pos" "three_way_valve_pos_text"
    (addText modeTextOf "mode" "mode_text" m)

/-- The number the host makes of a decoded value: `FLOAT_CONVERT`, on the host's side (R89, D16; log 31). -/
def hostFloat : Value → Option (BitVec 64)
  | .int _ => none
  | .scaled z d => some (Config.floatConvert z d)

end Sys2Proof.Machine
end

