-- ==== Sys2Proof/Machine/Ops.lean ====
section
/-! DEFINITION. The named operations on the state: the environment's draws and the peer's appends at the
end of a step (R34), the five primitives of the line (R10), returning a result (R11, R116), raising an error, which is this block's exception entry
(R114, R115), and reset (R127, R128). -/

namespace Sys2Proof.Machine

/-- The environment's next draw (log 1): the script's head, or a free value. -/
def State.nextDraw (s : State) : Draw :=
  match s.script with
  | d :: _ => d
  | [] => Config.freeDraw s.draws

/-- The state after a draw is taken (log 1). -/
def State.afterDraw (s : State) : State :=
  match s.script with
  | _ :: ds => { s with script := ds }
  | [] => { s with draws := s.draws + 1 }

/-- The end of a step: the peer has appended any bytes to `rxq`, whatever the step was (R34; log 2), and the
step's draw is spent (log 1). -/
def endStep (s : State) : State := { s.afterDraw with rxq := s.rxq ++ s.nextDraw.late }

/-- How many bytes of `l` the port accepts: a draw c with 0 ≤ c ≤ len(l) (R30). -/
def State.accepted (l : List Byte) (s : State) : Nat := min s.nextDraw.accept l.length

/-- `TxWrite(l)` (R30): the state after it; the accepted count is `s.accepted l`. -/
def txWrite (l : List Byte) (s : State) : State :=
  { s with
    rxq := s.rxq ++ s.nextDraw.arrive
    trace := s.trace ++ [.tx l (s.accepted l)] }

/-- The bytes `RxRead(n)` returns (R32): the first n of what is in `rxq` and of what arrives before the
read ends; fewer than n is a timeout (log 3). -/
def State.readBytes (n : Nat) (s : State) : List Byte := (s.rxq ++ s.nextDraw.arrive).take n

/-- `RxRead(n)` (R32): the state after it; the bytes returned are `s.readBytes n`. -/
def rxRead (n : Nat) (s : State) : State :=
  { s with
    rxq := (s.rxq ++ s.nextDraw.arrive).drop n
    trace := s.trace ++ [.rx n (s.readBytes n)] }

/-- `RxFlush()` (R33). -/
def rxFlush (s : State) : State := { s with rxq := [], trace := s.trace ++ [.flush] }

/-- `PortOpen(path)` when it fails (R104): `link_state` stays as it is. -/
def portRefuse (path : String) (s : State) : State :=
  { s with trace := s.trace ++ [.portOpen path false] }

/-- `PortOpen(path)` when it succeeds (R104): the port is held, `link_state` is `Unestablished`, `rxq` is
empty (R35). -/
def portGrant (path : String) (s : State) : State :=
  { s with
    link := .unestablished
    portHeld := true
    rxq := []
    trace := s.trace ++ [.portOpen path true] }

/-- `PortClose()` and `link_state <- Closed` (R104, R108): it always succeeds (D12), and what is in `rxq`
goes with the port (D29; log 13). -/
def portClose (s : State) : State :=
  { s with link := .closed, portHeld := false, rxq := [], trace := s.trace ++ [.portClose] }

/-- What `err` holds after a command ends (R25, R116): the error, or `None` after a success. -/
def Result.errOf : Result → Option Err
  | .ok _ => none
  | .err e => some e

/-- Completion of a host command (R115, R116): `last_result` and `err` are written, `phase` is `IDLE`. -/
def finishCmd (r : Result) (s : State) : State :=
  { s with phase := .idle, task := .idle, rsp := none, lastResult := some r, err := r.errOf }

/-- `raise` writes the error register (R10, R25), whatever runs; `last_result` is a host command's (R26). -/
def writeErr (e : Fail) (s : State) : State := { s with err := some { fail := e } }

/-- The result of an internal operation run on its own (R11; log 14). -/
def setResult (r : Result) (s : State) : State := { s with opResult := some r }

/-- An internal operation that took several steps on its own ends: its result stands in `opResult`, and
`phase` is where its rule leaves it (log 14, 16). -/
def finishOp (r : Result) (s : State) : State := { s with opResult := some r, task := .idle }

/-- `raise E(info)` in an internal operation of one computation run on its own (R10): the error register is
written, and the error is the operation's result. -/
def failOp (e : Fail) (s : State) : State := setResult (.err { fail := e }) (writeErr e s)

/-- The name of the registry entry a sweep is at (R105). -/
def State.sweepName (s : State) : Option String := (s.registry[s.sweepIdx]?).map SensorDef.name

/-- `raise E(info)` inside a sub-operation (R10, R25, R114): the error register is written and every caller
ends at once with the same error, up to the running operation. The only places that catch it are OPEN, which
releases the port first (R104), and GET_MEASUREMENTS, which wraps it and drops its map (R105). A host command
then ends as R115 says. -/
def raise (e : Fail) (s : State) : State :=
  match s.task with
  | .opening _ => { writeErr e s with phase := .closePort, task := .releasing e }
  | .sweeping => finishCmd (.err (errSensorRead s.sweepName e)) { s with sweepMap := [] }
  | .releasing _ | .writing | .closing => finishCmd (.err { fail := e }) s
  | _ => finishOp (.err { fail := e }) (writeErr e s)

/-- Reset (R127, R128): a running operation is abandoned with no result, the port is released if it is
held, every piece of the block's state takes its reset value. DESIGN CHOICE (log 9): a port held at `IDLE` is
released by a `PortClose` too, which R128 states for `busy` = 1 only; reset may come again in the same run,
as often as `resetIn` says; what belongs to the environment stays: the configuration, the bytes already sent
(the trace), the coming moves of the host, of the environment and of the reset input. -/
def applyReset (s : State) : State :=
  { State.reset with
    registry := s.registry
    trace := if s.portHeld then s.trace ++ [.portClose] else s.trace
    hostq := s.hostq
    script := s.script
    draws := s.draws
    resetIn := s.resetIn.tail }

end Sys2Proof.Machine
end

