-- ==== Sys2Proof/Machine/Codec.lean ====
section
/-! DEFINITION. The frame codec: the checksum accumulator (R73), the frame builder (R74), the
transmission of a request frame (R82) and the five parse steps (R75 to R79), one function per phase. -/

namespace Sys2Proof.Machine

/-- `CK_CLEAR()` (R73). -/
def ckClear (s : State) : State := { s with acc := 0 }

/-- `CK_ADD(b)`: `acc <- (acc + b) mod 256` (R73). -/
def ckAdd (b : Byte) (s : State) : State := { s with acc := s.acc + b }

/-- The loop of `CK_RUN`: one `CK_ADD` per payload byte, in order (R73). -/
def ckAddAll : List Byte → State → State
  | [], s => s
  | b :: bs, s => ckAddAll bs (ckAdd b s)

/-- `CK_RUN(L, p)` (R73). -/
def ckRun (len : Byte) (p : List Byte) (s : State) : State := ckAddAll p (ckAdd len (ckClear s))

/-- Whether `BUILD(p)` refuses the payload (R74). -/
def tooLarge (p : List Byte) : Bool := decide (p.length > Config.maxTxPayload)

/-- `BUILD(p)` of a payload that is not too large (R74): the frame stands in `txbuf`. -/
def buildFrame (p : List Byte) (s : State) : State :=
  let s1 := ckRun (byteOfNat p.length) p s
  { s1 with txbuf := [Config.startByte, byteOfNat p.length] ++ p ++ [s1.acc] }

/-- The transmission of the frame in `txbuf` (R82): `TxWrite`, then `WriteIncomplete` when the port
accepted fewer bytes, else on to the first parse step. -/
def transmit (s : State) : State :=
  let c := s.accepted s.txbuf
  let s1 := txWrite s.txbuf s
  if c < s.txbuf.length then raise (failWriteIncomplete c s.txbuf.length) s1
  else { s1 with phase := .rxAck }

/-- A request frame with payload p is built and transmitted (R74, R82). -/
def sendFrame (p : List Byte) (s : State) : State :=
  if tooLarge p then raise (failTooLarge p.length) s
  else transmit { buildFrame p s with phase := .txFrame }

/-- `PARSE` begins (R75). -/
def startParse (s : State) : State := { s with phase := .rxAck, rsp := none }

/-- R75, `ACK` recognised: on to R76. -/
def ackReceived (s : State) : State := { s with ackByte := Config.ackByte, phase := .rxStart }

/-- R75, `NAK` recognised. -/
def nakReceived (s : State) : State := raise failNak { s with ackByte := Config.nakByte }

/-- R75, neither: no byte is `NoAck`, another byte `UnexpectedAckByte`. -/
def ackMissed (r : List Byte) (s : State) : State :=
  match r with
  | [] => raise failNoAck s
  | b :: _ => raise (failUnexpectedAck b) { s with ackByte := b }

/-- R76: the frame's start byte. -/
def startStep (s : State) : State :=
  match s.readBytes 1 with
  | [] => raise (failFrameStart none) (rxRead 1 s)
  | b :: _ =>
    if b ≠ Config.startByte then raise (failFrameStart (some b)) { rxRead 1 s with startByte := b }
    else { rxRead 1 s with startByte := b, phase := .rxLen }

/-- R77: the length byte, any value. -/
def lenStep (s : State) : State :=
  match s.readBytes 1 with
  | [] => raise failFrameSize (rxRead 1 s)
  | b :: _ => { rxRead 1 s with declaredSize := b, phase := .rxBody }

/-- R78: payload and checksum in one read of `declared_size` + 1 bytes. -/
def bodyStep (s : State) : State :=
  let n := s.declaredSize.toNat + 1
  let r := s.readBytes n
  let s1 := { rxRead n s with rxbuf := r }
  if r.length < n then raise (failTooShort r.length n) s1
  else { s1 with phase := .check, rsp := none }

/-- The parse's result, the payload, goes to its caller: on its own it is the result of `PARSE` or
`EXECUTE` (R79, R82); inside a register access the echo check is next (R84, R86). -/
def parseReturn (p : List Byte) (s : State) : State :=
  match s.task with
  | .sweeping => { s with rsp := some p }
  | .writing => { s with rsp := some p }
  | .regRead => { s with rsp := some p }
  | .regWrite => { s with rsp := some p }
  | _ => finishOp (.ok (.bytes p)) s

/-- R79: the checksum check over `declared_size` and the payload, against the trailing byte. A body that
is shorter than R78 leaves it is treated as R78 does (log 34). -/
def checkFrame (s : State) : State :=
  let p := s.rxPayload
  let s1 := ckRun s.declaredSize p { s with phase := .check }
  match s.rxbuf[s.declaredSize.toNat]? with
  | none => raise (failTooShort s.rxbuf.length (s.declaredSize.toNat + 1)) s1
  | some ck => if s1.acc ≠ ck then raise (failChecksum ck s1.acc) s1 else parseReturn p s1

/-- A response frame received whole (R76 to R79): its bytes stand in the response registers, and the
checksum is checked. DESIGN CHOICE (log 42): a payload operand of more than 255 bytes, for which R53 has no
`LEN`, is on no line; `declared_size` then holds its length mod 256, and `rxbuf` all of it. -/
def frameReceived (p : List Byte) (ck : Byte) (s : State) : State :=
  checkFrame { s with
    startByte := Config.startByte
    declaredSize := byteOfNat p.length
    rxbuf := p ++ [ck] }

end Sys2Proof.Machine
end

