-- ==== Sys2Proof/Machine/Handshake.lean ====
section
/-! DEFINITION. The transport handshake (R67 to R71): the wake loop and the sync step, one function per
phase. It neither flushes nor checks a `TxWrite` count (R71). -/

namespace Sys2Proof.Machine

/-- The head of the wake loop (R68): the error when 10 attempts are used up, else the next attempt. -/
def wakeHead (s : State) : State :=
  if Config.wakeAttempts ≤ s.wakeCount then raise (failNoHandshake s.wakeLast) s
  else { s with phase := .hsWakeTx }

/-- `HANDSHAKE` begins: `wake_count <- 0` and the loop is entered (R68). -/
def startHandshake (s : State) : State := wakeHead { s with wakeCount := 0, wakeLast := none }

/-- One wake attempt's transmission (R68): never an eleventh. -/
def wakeSend (s : State) : State :=
  if Config.wakeAttempts ≤ s.wakeCount then raise (failNoHandshake s.wakeLast) s
  else { txWrite [Config.wakeByte] s with wakeCount := s.wakeCount + 1, phase := .hsWakeRx }

/-- `WAKE_ACK` recognised: the loop is left for the sync step (R68, R69). -/
def wakeAcked (s : State) : State :=
  { s with wakeLast := some Config.wakeAckByte, phase := .hsSyncTx }

/-- A failed attempt: no byte, or another byte (R68, D6). -/
def wakeMissed (r : List Byte) (s : State) : State := wakeHead { s with wakeLast := r.head? }

/-- The sync command (R69). -/
def syncSend (s : State) : State := { txWrite Config.syncCmd s with phase := .hsSyncRx }

/-- `SYNC_ACK` recognised: the link is ready (R69), and the handshake returns `Ok(())` to its caller, OPEN
(R104) or nobody. DESIGN CHOICE (log 41): the spec runs it inside OPEN only; executed on its own with no port
held it makes the link `Ready` all the same and leaves `port_held` 0, so R16 holds of steps and not of this. -/
def syncAcked (s : State) : State :=
  match s.task with
  | .opening _ => finishCmd (.ok .unit) { s with link := .ready }
  | _ => finishOp (.ok .unit) { s with link := .ready }

/-- Another byte than the sync acknowledge, or none (R69, D8). -/
def syncMissed (r : List Byte) (s : State) : State := raise (failSync r.head?) s

end Sys2Proof.Machine
end

