-- ==== Sys2Proof/Machine/Client.lean ====
section
/-! DEFINITION. The transaction engine's entry (R82) and the register client (R84 to R87). -/

namespace Sys2Proof.Machine

/-- `EXECUTE` begins (R82): its first phase is `TX_FLUSH`. -/
def startTransaction (s : State) : State := { s with phase := .txFlush, rsp := none }

/-- The payload of the transaction that runs: the operand of an `EXECUTE` on its own, else the register
command of the request registers, with a write's operand `data` (R84, R86). -/
def State.txPayload (s : State) : List Byte :=
  match s.task, s.reqKind with
  | .execute p, _ => p
  | _, .read => readReqPayload s.reqAddr s.reqSize
  | _, .write => writeReqPayload s.reqAddr s.reqSize s.callData

/-- R82, `TX_FLUSH`: the flush comes first, then `BUILD`, whose error ends the transaction before a byte
is sent. -/
def flushStep (s : State) : State :=
  let p := s.txPayload
  if tooLarge p then raise (failTooLarge p.length) (rxFlush s)
  else { buildFrame p (rxFlush s) with phase := .txFrame }

/-- `REG_READ(addr, size)` up to its transaction (R84): the size check comes before any interaction. -/
def startRead (addr : Addr) (size : Int) (s : State) : State :=
  if size < 1 ∨ size > 4 then raise (failSize size) s
  else startTransaction { s with reqKind := .read, reqAddr := addr, reqSize := BitVec.ofInt 8 size }

/-- What `req_size` holds of a write's length (R21, R86): its 8 bits; beyond them a free value (log 17). -/
def sizeReg (n : Nat) : Byte := if n ≤ 255 then byteOfNat n else Config.freeReqSize n

/-- What `req_data` holds of a write's data (R21, R86): its 0 to 95 bytes; of more a free value in that
bound (log 17). -/
def dataReg (data : List Byte) : List Byte :=
  if data.length ≤ Config.maxWriteData then data else (Config.freeReqData data).take Config.maxWriteData

/-- `REG_WRITE(addr, data)` up to its transaction (R86). -/
def startWrite (addr : Addr) (data : List Byte) (s : State) : State :=
  startTransaction { s with
    reqKind := .write
    reqAddr := addr
    reqSize := sizeReg data.length
    reqData := dataReg data
    callData := data }

/-- The data bytes of a read's reply: `rsp[5 .. 5 + size)` (R84). -/
def State.readData (rsp : List Byte) (s : State) : List Byte := (rsp.drop 5).take s.reqSize.toNat

/-- `REG_READ` returns its data (R84): a sweep goes on to decode it (R105). -/
def readReturn (rsp : List Byte) (s : State) : State :=
  match s.task with
  | .sweeping => { s with phase := .decode, rsp := some rsp }
  | _ => finishOp (.ok (.bytes (s.readData rsp))) s

/-- `REG_WRITE` returns (R86): WRITE_VALUE ends with `Ok(())` (R107). -/
def writeReturn (s : State) : State :=
  match s.task with
  | .writing => finishCmd (.ok .unit) s
  | _ => finishOp (.ok .unit) s

/-- The echo check of the reply to the pending request (R85, R87), and the return to the caller. -/
def echoCheck (rsp : List Byte) (s : State) : State :=
  match s.reqKind with
  | .read =>
    match readCheck s.reqAddr s.reqSize rsp with
    | some e => raise e s
    | none => readReturn rsp s
  | .write =>
    match writeCheck s.reqAddr s.reqSize rsp with
    | some e => raise e s
    | none => writeReturn s

end Sys2Proof.Machine
end

