-- ==== Sys2Proof/Machine/Session.lean ====
section
/-! DEFINITION. The session controller (R103 to R108): accepting the four host commands, and the phases
that are theirs, `OPEN_PORT`, `DECODE` and `CLOSE_PORT`. -/

namespace Sys2Proof.Machine

/-- A command in the wrong link state ends at once with `NotReady` (R103, D4). -/
def refuseCmd (s : State) : State := finishCmd (.err { fail := failNotReady }) s

/-- `OPEN(path)` is accepted (R103, R104). -/
def acceptOpen (path : String) (s : State) : State :=
  if s.link ≠ .closed then refuseCmd s
  else { s with phase := .openPort, task := .opening path }

/-- R104, `OPEN_PORT`: the port decides; success goes on to the handshake. -/
def openPortStep (s : State) : State :=
  match s.task with
  | .opening path =>
    if s.nextDraw.portOk then startHandshake (portGrant path s)
    else finishCmd (.err { fail := failPortOpen }) (portRefuse path s)
  | _ => { s with phase := .idle }

/-- The sweep is complete (R105): the derived fields are added and the map is the result. -/
def finishSweep (s : State) : State :=
  finishCmd (.ok (.map (addDerived s.sweepMap))) { s with sweepMap := addDerived s.sweepMap }

/-- One round of the sweep's loop begins (R105): the entry at index i is read. -/
def sweepEntry (i : Nat) (s : State) : State :=
  match s.registry[i]? with
  | none => finishSweep s
  | some d => startRead d.addr (d.size : Int) { s with sweepIdx := i }

/-- `GET_MEASUREMENTS` is accepted (R103, R105). -/
def acceptSweep (s : State) : State :=
  if s.link ≠ .ready then refuseCmd s
  else sweepEntry 0 { s with task := .sweeping, sweepMap := [] }

/-- R105, `DECODE`: the entry's value enters the map, and the loop goes on with the next entry. -/
def decodeStep (s : State) : State :=
  match s.registry[s.sweepIdx]?, s.rsp with
  | some d, some rsp =>
    sweepEntry (s.sweepIdx + 1)
      { s with sweepMap := mapSet s.sweepMap d.name (.num (decodeKind d.kind (s.readData rsp))) }
  | _, _ => finishSweep s

/-- Whether a kind is `UnsignedInt(_)`, the only writable one (R97). -/
def Kind.writable : Kind → Bool
  | .signedInt _ => false
  | .unsignedInt _ => true
  | .scaledFloat _ _ => false

/-- `WRITE_VALUE(name, value)` is accepted (R103, R107): its checks, in order, then the register write. -/
def acceptWrite (name : String) (v : HostNum) (s : State) : State :=
  if s.link ≠ .ready then refuseCmd s
  else
    match lookupName s.registry name with
    | none => finishCmd (.err { fail := failSensor .unknownSensor name }) s
    | some d =>
      if Kind.writable d.kind then
        match encodeUnsigned v d.size with
        | none => finishCmd (.err { fail := failSensor .valueOutOfRange name }) s
        | some b => startWrite d.addr b { s with task := .writing }
      else finishCmd (.err { fail := failSensor .notWritable name }) s

/-- `CLOSE` is accepted (R108): a no-op when no port is held. -/
def acceptClose (s : State) : State :=
  if s.link = .closed then finishCmd (.ok .unit) s
  else { s with phase := .closePort, task := .closing }

/-- R104 and R108, `CLOSE_PORT`: the port is released, then the command ends, OPEN with the handshake's
error, CLOSE with `Ok(())`. -/
def closePortStep (s : State) : State :=
  match s.task with
  | .releasing e => finishCmd (.err { fail := e }) (portClose s)
  | _ => finishCmd (.ok .unit) (portClose s)

/-- A host command is accepted (R103). -/
def acceptCmd : HostCmd → State → State
  | .openCmd path, s => acceptOpen path s
  | .getMeasurements, s => acceptSweep s
  | .writeValue name v, s => acceptWrite name v s
  | .closeCmd, s => acceptClose s

/-- `IDLE`: the next command the host issues is accepted; with none the block waits (R110, R127). -/
def idleStep (s : State) : State :=
  match s.hostq with
  | [] => s
  | c :: cs => acceptCmd c { s with hostq := cs }

end Sys2Proof.Machine
end

