-- ==== Sys2Proof/Machine/Sequencer.lean ====
section
/-! DEFINITION. The sequencer (R13, R14): what it recognises in its phase, what each phase does, one
phase at a time, and an operation run to its end. -/

namespace Sys2Proof.Machine

/-- What the sequencer finds in its present phase: the bytes that stand there, the message they are, if
they are one, and the state after the read that fetched them. -/
structure Fetch where
  bytes : List Byte
  instr : Option Instr
  state : State

/-- Bytes the sequencer holds already. -/
def fetchHeld (sl : Slot) (l : List Byte) (s : State) : Fetch :=
  { bytes := l, instr := (decode sl l).instr?, state := s }

/-- One byte read from the line (R68, R69, R75): `RxRead(1)`. -/
def fetchByte (sl : Slot) (s : State) : Fetch :=
  { bytes := s.readBytes 1, instr := (decode sl (s.readBytes 1)).instr?, state := rxRead 1 s }

/-- The frame about to be sent (R74): the register request its payload is (R84, R86), else a request frame. -/
def requestOf (l : List Byte) : Option Instr :=
  match decode .txFrame l with
  | .instr (.reqFrame p) =>
    match decode .payload p with
    | .instr (.readReq addr size) => some (.readReq addr size)
    | .instr (.writeReq addr data) => some (.writeReq addr data)
    | _ => some (.reqFrame p)
  | _ => none

/-- The register reply a payload is (R85, R87). -/
def replyOf (p : List Byte) : Option Instr :=
  match decode .payload p with
  | .instr (.readRsp addr size data) => some (.readRsp addr size data)
  | .instr (.writeRsp addr n) => some (.writeRsp addr n)
  | _ => none

/-- What stands before the sequencer in its phase (R63): the message it is to send, or the message it
receives. With no operation running nothing does (log 16). -/
def fetch (s : State) : Fetch :=
  if s.task = .idle then { bytes := [], instr := none, state := s }
  else
    match s.phase with
    | .hsWakeTx => fetchHeld .wakeTx [Config.wakeByte] s
    | .hsWakeRx => fetchByte .wakeRx s
    | .hsSyncTx => fetchHeld .syncTx Config.syncCmd s
    | .hsSyncRx => fetchByte .syncRx s
    | .txFrame => { bytes := s.txbuf, instr := requestOf s.txbuf, state := s }
    | .rxAck => fetchByte .rxAck s
    | .check =>
      match s.rsp with
      | none => fetchHeld .rxFrame (s.startByte :: s.declaredSize :: s.rxbuf) s
      | some p => { bytes := p, instr := replyOf p, state := s }
    | .idle | .openPort | .txFlush | .rxStart | .rxLen | .rxBody | .decode | .closePort =>
      { bytes := [], instr := none, state := s }

/-- `READ_REQ` or `WRITE_REQ` or any payload: transmitted as a request frame (R58, R60, R74, R82).
DESIGN CHOICE (log 43): R65 says that the block never sends another access type; a payload that is neither
message, which only `EXECUTE` or `REQ_FRAME` executed on its own can bring here, is sent all the same. -/
def requestSent (p : List Byte) (s : State) : State := sendFrame p s

/-- A reply payload is checked against the pending request (R85, R87; log 28). -/
def replyReceived (p : List Byte) (s : State) : State := echoCheck p { s with phase := .check, rsp := some p }

/-- What a message does to the state (R63). What is no message of the line does nothing here: the fetch
never gives one. -/
def runMessage (i : Instr) (s : State) : State :=
  match i with
  | .wake => wakeSend s
  | .wakeAck => wakeAcked s
  | .sync => syncSend s
  | .syncAck => syncAcked s
  | .ack => ackReceived s
  | .nak => nakReceived s
  | .reqFrame payload => requestSent payload s
  | .respFrame payload ck => frameReceived payload ck s
  | .readReq addr size => requestSent (readReqPayload addr size) s
  | .readRsp addr size data => replyReceived (readRspPayload addr size data) s
  | .writeReq addr data => requestSent (writeReqPayload addr (sizeReg data.length) data) s
  | .writeRsp addr n => replyReceived (writeRspPayload addr n) s
  | .openCmd _ | .getMeasurements | .writeValue _ _ | .closeCmd | .handshake | .ckClear | .ckAdd _
  | .ckRun _ _ | .build _ | .parse | .execute _ | .regRead _ _ | .readCheck _ | .regWrite _ _
  | .writeCheck _ | .decode _ _ | .decodeSigned _ _ | .decodeUnsigned _ _ | .decodeScaled _ _ _
  | .encodeUnsigned _ _ | .modeText _ | .valveText _ | .lookup _ | .addDerived _ => s

/-- What a phase does when no message stands before it: the phases that hold none, and in the receiving
phases the error of the phase (R64) or the wake loop's failed attempt. A phase with no operation running
above it goes to `IDLE` (log 16). -/
def phaseStep (bytes : List Byte) (s : State) : State :=
  if s.phase = .idle then idleStep s
  else if s.task = .idle then { s with phase := .idle }
  else
    match s.phase with
    | .idle => idleStep s
    | .openPort => openPortStep s
    | .hsWakeTx => wakeSend s
    | .hsWakeRx => wakeMissed bytes s
    | .hsSyncTx => syncSend s
    | .hsSyncRx => syncMissed bytes s
    | .txFlush => flushStep s
    | .txFrame => transmit s
    | .rxAck => ackMissed bytes s
    | .rxStart => startStep s
    | .rxLen => lenStep s
    | .rxBody => bodyStep s
    | .check =>
      match s.rsp with
      | none => checkFrame s
      | some p => echoCheck p s
    | .decode => decodeStep s
    | .closePort => closePortStep s

/-- One step of the sequencer (R13.1): one interaction, or one internal computation. -/
def advance (s : State) : State :=
  let f := fetch s
  match f.instr with
  | some i => runMessage i f.state
  | none => phaseStep f.bytes f.state

/-- A step's outcome with what the peer appends before the next step (R34; log 2). -/
def withPeer : Host.Outcome State Fault Refusal → Host.Outcome State Fault Refusal
  | .next t => .next (endStep t)
  | .fault f => .fault f
  | .refused r => .refused r

/-- One step of an operation with what the peer appends (R34): the step of the machine while no reset is due. -/
def tick (s : State) : State := endStep (advance s)

/-- An operation run to its end, in at most `fuel` steps (R135). -/
def drive : Nat → State → State
  | 0, s => s
  | fuel + 1, s => if s.task = .idle then s else drive fuel (tick s)

/-- More steps than any operation takes (R135): 24 for OPEN, 8 for a transaction, 9 for each entry of a
sweep. -/
def State.opFuel (s : State) : Nat := 40 + 9 * s.registry.length

/-- An internal operation of several steps run on its own above whatever runs: `start` begins it under its
task, and when it has ended the caller's task stands again (log 7, 14). -/
def runOp (task : Task) (start : State → State) (s : State) : State :=
  { drive s.opFuel (start { s with task := task }) with task := s.task }

/-- A host command accepted at `IDLE`, in a step of its own, and run to its end (R103, R116; log 7). -/
def runCmd (c : HostCmd) (s : State) : State := drive s.opFuel (endStep (acceptCmd c s))

/-- A wire message placed where the sequencer fetches it next (log 25), with an operation running above
it that the message belongs to, the port held, and a first environment draw that accepts everything and
adds nothing. -/
def placeMessage (i : Instr) (s : State) : State :=
  let quiet : Draw := { arrive := [], accept := 256, portOk := true, late := [] }
  let hs : State := { s with link := .unestablished, portHeld := true, task := .handshake,
                             script := quiet :: s.script }
  let tr : State := { s with link := .ready, portHeld := true, script := quiet :: s.script }
  let frame (p : List Byte) : State :=
    { tr with phase := .txFrame, task := .execute p, txbuf := frameOf p,
              acc := checksum (byteOfNat p.length) p }
  match i with
  | .wake => { hs with phase := .hsWakeTx, wakeCount := 0 }
  | .wakeAck => { hs with phase := .hsWakeRx, rxq := [0x05] }
  | .sync => { hs with phase := .hsSyncTx }
  | .syncAck => { hs with phase := .hsSyncRx, rxq := [0x06] }
  | .ack => { tr with phase := .rxAck, task := .parse, rxq := [0x06] }
  | .nak => { tr with phase := .rxAck, task := .parse, rxq := [0x15] }
  | .reqFrame payload => frame payload
  | .respFrame payload ck =>
    { tr with phase := .check, task := .parse, rsp := none, startByte := 0x41,
              declaredSize := byteOfNat payload.length, rxbuf := payload ++ [ck] }
  | .readReq addr size => frame (readReqPayload addr size)
  | .readRsp addr size data =>
    { tr with phase := .check, task := .regRead, reqKind := .read,
              rsp := some (readRspPayload addr size data) }
  | .writeReq addr data => frame (writeReqPayload addr (byteOfNat data.length) data)
  | .writeRsp addr n =>
    { tr with phase := .check, task := .regWrite, reqKind := .write,
              rsp := some (writeRspPayload addr n) }
  | .openCmd _ | .getMeasurements | .writeValue _ _ | .closeCmd | .handshake | .ckClear | .ckAdd _
  | .ckRun _ _ | .build _ | .parse | .execute _ | .regRead _ _ | .readCheck _ | .regWrite _ _
  | .writeCheck _ | .decode _ _ | .decodeSigned _ _ | .decodeUnsigned _ _ | .decodeScaled _ _ _
  | .encodeUnsigned _ _ | .modeText _ | .valveText _ | .lookup _ | .addDerived _ => s

/-- Bytes that are no message, placed where the parser reads its first byte. -/
def placeByte (b : Byte) (s : State) : State :=
  { s with
    phase := .rxAck
    task := .parse
    link := .ready
    portHeld := true
    rxq := [b]
    script := { arrive := [], accept := 256, portOk := true, late := [] } :: s.script }

end Sys2Proof.Machine
end

