-- ==== Sys2Proof/Machine/Messages.lean ====
section
/-! DEFINITION. The meanings of the twelve messages of the line: what the block does on sending one, and
on recognising one in its phase (R63; log 26). -/

namespace Sys2Proof.Machine

/-- What a meaning answers. -/
abbrev Answer := Host.Outcome State Fault Refusal

/-- `WAKE` (R68): `TX 04`, `wake_count` + 1, then the wake acknowledge is awaited; with 10 attempts used it
is `NoHandshakeResponse`. -/
def execWake (s : State) : Answer := .next (wakeSend s)

/-- `WAKE_ACK` (R68): the wake loop succeeds. -/
def execWakeAck (s : State) : Answer := .next (wakeAcked s)

/-- `SYNC` (R69): `TX 16 00 00`, then the sync acknowledge is awaited. -/
def execSync (s : State) : Answer := .next (syncSend s)

/-- `SYNC_ACK` (R69): `link_state` is `Ready` and the handshake returns `Ok(())` (with no port held: log 41). -/
def execSyncAck (s : State) : Answer := .next (syncAcked s)

/-- `ACK` (R75): the request frame is accepted; the frame start is awaited. -/
def execAck (s : State) : Answer := .next (ackReceived s)

/-- `NAK` (R75): `NakReceived`. -/
def execNak (s : State) : Answer := .next (nakReceived s)

/-- `REQ_FRAME` (R74, R82): the frame is built and transmitted; the ACK is awaited (log 27). DESIGN CHOICE
(log 43): also with a payload that is no `READ_REQ` and no `WRITE_REQ` (R63, R65). -/
def execReqFrame (payload : List Byte) (s : State) : Answer := .next (requestSent payload s)

/-- `RESP_FRAME` (R76 to R79): the frame received whole; its checksum decides (of more than 255 payload bytes:
log 42). -/
def execRespFrame (payload : List Byte) (ck : Byte) (s : State) : Answer :=
  .next (frameReceived payload ck s)

/-- `READ_REQ` (R58, R84): sent as a request frame (log 27). DESIGN CHOICE (log 40): with a size outside 1
to 4, which R58 does not define and which only `REG_READ` refuses (R84), it is sent all the same. -/
def execReadReq (addr : Addr) (size : Byte) (s : State) : Answer :=
  .next (requestSent (readReqPayload addr size) s)

/-- `READ_RSP` (R59, R85): the echo check of the pending request (log 28). -/
def execReadRsp (addr : Addr) (size : Byte) (data : List Byte) (s : State) : Answer :=
  .next (replyReceived (readRspPayload addr size data) s)

/-- `WRITE_REQ` (R60, R86): sent as a request frame (log 27); of more than 95 data bytes `BUILD` refuses it
(R74; log 40). -/
def execWriteReq (addr : Addr) (data : List Byte) (s : State) : Answer :=
  .next (requestSent (writeReqPayload addr (sizeReg data.length) data) s)

/-- `WRITE_RSP` (R61, R87): the echo check of the pending request (log 28). -/
def execWriteRsp (addr : Addr) (n : Byte) (s : State) : Answer :=
  .next (replyReceived (writeRspPayload addr n) s)

end Sys2Proof.Machine
end

