-- ==== Sys2Proof/Machine/Commands.lean ====
section
/-! DEFINITION. The meanings of the four host commands (R103 to R108): accepted only at `IDLE`, and run to
their end (log 7). -/

namespace Sys2Proof.Machine

/-- The port's guard (R103): a command while `busy` = 1 has no move (log 8). -/
def whenIdle (c : HostCmd) (s : State) : Answer :=
  if s.busy then .fault .commandWhileBusy else .next (runCmd c s)

/-- `OPEN(path)` (R104). -/
def execOpen (path : String) (s : State) : Answer := whenIdle (.openCmd path) s

/-- `GET_MEASUREMENTS` (R105). -/
def execGetMeasurements (s : State) : Answer := whenIdle .getMeasurements s

/-- `WRITE_VALUE(name, value)` (R107). -/
def execWriteValue (name : String) (value : HostNum) (s : State) : Answer :=
  whenIdle (.writeValue name value) s

/-- `CLOSE` (R108). -/
def execClose (s : State) : Answer := whenIdle .closeCmd s

end Sys2Proof.Machine
end

