-- ==== Sys2Proof/Machine/Internal.lean ====
section
/-! DEFINITION. The meanings of the twenty internal operations, each run on its own: its effect on the
registers is its rule's, what it returns stands in `opResult`, and an error it raises also in `err` (R10, R25;
log 14). -/

namespace Sys2Proof.Machine

/-- `HANDSHAKE()` (R67 to R69). The spec runs it inside OPEN only, with the port held: what it does on its own
with no port is the model's choice (log 41). -/
def execHandshake (s : State) : Answer := .next (runOp .handshake startHandshake s)

/-- `CK_CLEAR()` (R73). -/
def execCkClear (s : State) : Answer := .next (ckClear s)

/-- `CK_ADD(b)` (R73). -/
def execCkAdd (b : Byte) (s : State) : Answer := .next (ckAdd b s)

/-- `CK_RUN(L, p)` (R73). -/
def execCkRun (len : Byte) (p : List Byte) (s : State) : Answer := .next (ckRun len p s)

/-- `BUILD(p)` (R74): a refused payload leaves `acc` and `txbuf` as they are. -/
def execBuild (p : List Byte) (s : State) : Answer :=
  if tooLarge p then .next (failOp (failTooLarge p.length) s)
  else
    let s1 := buildFrame p s
    .next (setResult (.ok (.bytes s1.txbuf)) s1)

/-- `PARSE()` (R75 to R79). -/
def execParse (s : State) : Answer := .next (runOp .parse startParse s)

/-- `EXECUTE(p)` (R82). DESIGN CHOICE (log 43): executed on its own it sends a p that is no `READ_REQ` and no
`WRITE_REQ` too, of which R63 and R65 say only that the block never sends it. -/
def execExecute (p : List Byte) (s : State) : Answer := .next (runOp (.execute p) startTransaction s)

/-- `REG_READ(addr, size)` (R84). -/
def execRegRead (addr : Addr) (size : Int) (s : State) : Answer :=
  .next (runOp .regRead (startRead addr size) s)

/-- `READ_CHECK(rsp)` against the request registers (R85). -/
def execReadCheck (rsp : List Byte) (s : State) : Answer :=
  match readCheck s.reqAddr s.reqSize rsp with
  | some e => .next (failOp e s)
  | none => .next (setResult (.ok .unit) s)

/-- `REG_WRITE(addr, data)` (R86). -/
def execRegWrite (addr : Addr) (data : List Byte) (s : State) : Answer :=
  .next (runOp .regWrite (startWrite addr data) s)

/-- `WRITE_CHECK(rsp)` against the request registers (R87). -/
def execWriteCheck (rsp : List Byte) (s : State) : Answer :=
  match writeCheck s.reqAddr s.reqSize rsp with
  | some e => .next (failOp e s)
  | none => .next (setResult (.ok .unit) s)

/-- `DECODE(kind, b)` (R94). -/
def execDecode (kind : Kind) (b : List Byte) (s : State) : Answer :=
  .next (setResult (.ok (.value (decodeKind kind b))) s)

/-- `DECODE_SIGNED(b, size)` (R91). -/
def execDecodeSigned (b : List Byte) (size : Nat) (s : State) : Answer :=
  .next (setResult (.ok (.value (.int (signedVal b size)))) s)

/-- `DECODE_UNSIGNED(b, size)` (R92). -/
def execDecodeUnsigned (b : List Byte) (size : Nat) (s : State) : Answer :=
  .next (setResult (.ok (.value (.int (unsignedVal b size)))) s)

/-- `DECODE_SCALED(b, size, divisor)` (R93). -/
def execDecodeScaled (b : List Byte) (size divisor : Nat) (s : State) : Answer :=
  .next (setResult (.ok (.value (.scaled (signedVal b size) divisor))) s)

/-- `ENCODE_UNSIGNED(v, size)` (R95). -/
def execEncodeUnsigned (v : HostNum) (size : Nat) (s : State) : Answer :=
  match encodeUnsigned v size with
  | none => .next (failOp failRange s)
  | some b => .next (setResult (.ok (.bytes b)) s)

/-- `MODE_TEXT(v)` (R98). -/
def execModeText (v : Value) (s : State) : Answer :=
  .next (setResult (.ok (.text (modeTextOf v))) s)

/-- `VALVE_TEXT(v)` (R99). -/
def execValveText (v : Value) (s : State) : Answer :=
  .next (setResult (.ok (.text (valveTextOf v))) s)

/-- `LOOKUP(name)` (R102). -/
def execLookup (name : String) (s : State) : Answer :=
  .next (setResult (.ok (.sensor (lookupName s.registry name))) s)

/-- `ADD_DERIVED(m)` (R106; log 36). -/
def execAddDerived (m : SweepMap) (s : State) : Answer :=
  .next (setResult (.ok (.map (addDerived m))) s)

end Sys2Proof.Machine
end

