-- ==== Sys2Proof/Machine/Dispatch.lean ====
section
/-! DEFINITION. One arm per instruction: each a direct call of its meaning. -/

namespace Sys2Proof.Machine

def exec (i : Instr) (s : State) : Host.Outcome State Fault Refusal :=
  match i with
  | .wake => Sys2Proof.Machine.execWake s
  | .wakeAck => Sys2Proof.Machine.execWakeAck s
  | .sync => Sys2Proof.Machine.execSync s
  | .syncAck => Sys2Proof.Machine.execSyncAck s
  | .ack => Sys2Proof.Machine.execAck s
  | .nak => Sys2Proof.Machine.execNak s
  | .reqFrame payload => Sys2Proof.Machine.execReqFrame payload s
  | .respFrame payload ck => Sys2Proof.Machine.execRespFrame payload ck s
  | .readReq addr size => Sys2Proof.Machine.execReadReq addr size s
  | .readRsp addr size data => Sys2Proof.Machine.execReadRsp addr size data s
  | .writeReq addr data => Sys2Proof.Machine.execWriteReq addr data s
  | .writeRsp addr n => Sys2Proof.Machine.execWriteRsp addr n s
  | .openCmd path => Sys2Proof.Machine.execOpen path s
  | .getMeasurements => Sys2Proof.Machine.execGetMeasurements s
  | .writeValue name value => Sys2Proof.Machine.execWriteValue name value s
  | .closeCmd => Sys2Proof.Machine.execClose s
  | .handshake => Sys2Proof.Machine.execHandshake s
  | .ckClear => Sys2Proof.Machine.execCkClear s
  | .ckAdd b => Sys2Proof.Machine.execCkAdd b s
  | .ckRun len p => Sys2Proof.Machine.execCkRun len p s
  | .build p => Sys2Proof.Machine.execBuild p s
  | .parse => Sys2Proof.Machine.execParse s
  | .execute p => Sys2Proof.Machine.execExecute p s
  | .regRead addr size => Sys2Proof.Machine.execRegRead addr size s
  | .readCheck rsp => Sys2Proof.Machine.execReadCheck rsp s
  | .regWrite addr data => Sys2Proof.Machine.execRegWrite addr data s
  | .writeCheck rsp => Sys2Proof.Machine.execWriteCheck rsp s
  | .decode kind b => Sys2Proof.Machine.execDecode kind b s
  | .decodeSigned b size => Sys2Proof.Machine.execDecodeSigned b size s
  | .decodeUnsigned b size => Sys2Proof.Machine.execDecodeUnsigned b size s
  | .decodeScaled b size divisor => Sys2Proof.Machine.execDecodeScaled b size divisor s
  | .encodeUnsigned v size => Sys2Proof.Machine.execEncodeUnsigned v size s
  | .modeText v => Sys2Proof.Machine.execModeText v s
  | .valveText v => Sys2Proof.Machine.execValveText v s
  | .lookup name => Sys2Proof.Machine.execLookup name s
  | .addDerived m => Sys2Proof.Machine.execAddDerived m s

end Sys2Proof.Machine
end

