-- ==== Sys2Proof/Machine/Step.lean ====
section
/-! DEFINITION. One step of the machine (R13, R14): the reset input first, then the sequencer, which runs
the message that stands before it in its phase, or else the phase's own work. -/

namespace Sys2Proof.Machine

/-- One step of the sequencer: the message it recognises is executed, else its phase does its work. -/
def sequencerStep (s : State) : Host.Outcome State Fault Refusal :=
  let f := fetch s
  match f.instr with
  | some i => exec i f.state
  | none => .next (phaseStep f.bytes f.state)

/-- The machine's step: reset when it is due (R128; log 9), else one step of the sequencer and the peer's
bytes. -/
def step (s : State) : Host.Outcome State Fault Refusal :=
  match s.resetIn with
  | [] => withPeer (sequencerStep s)
  | 0 :: _ => .next (applyReset s)
  | (k + 1) :: rest => withPeer (sequencerStep { s with resetIn := k :: rest })

/-- The state with the message of a table word placed where the next step fetches it (log 25). -/
def State.withFetchWord (s : State) (nbits w : Nat) : State :=
  match decodeTableWord nbits w with
  | some i => { placeMessage i s with resetIn := [] }
  | none => { placeByte (tableByte w 0) s with resetIn := [] }

end Sys2Proof.Machine
end

