-- ==== Sys2Proof/Safety.lean ====
section
/-! DEFINITION. What the claims are stated in: the machine's invariants, the groups of state an
instruction leaves unchanged, the kinds of interaction, and how an environment answers. -/

namespace Sys2Proof

/-- At this draw the peer appends exactly `l`, before the step's interaction ends. -/
def Draw.brings (d : Draw) (l : List Byte) : Prop := d.arrive = l ∧ d.late = []

/-- A host number is t when truncated toward zero (R8, R95): an integer as it is, a finite real num / den. -/
def HostNum.truncatesTo (v : HostNum) (t : Int) : Prop :=
  v = .int t ∨ ∃ num den, 0 < den ∧ v = .ratio num den ∧ t = num.sign * ((num.natAbs / den : Nat) : Int)

end Sys2Proof

namespace Sys2Proof.Machine

/-! ### Invariants -/

/-- Counters and buffers lie in the widths the spec gives them: `wake_count` ≤ 10 (R17), `txbuf` ≤ 103
bytes (R19), `rxbuf` ≤ 256 bytes (R20), `req_data` ≤ 95 bytes (R21), `sweep_idx` ≤ len(`REGISTRY`) (R22). -/
def State.inWidths (s : State) : Prop :=
  s.wakeCount ≤ 10 ∧ s.txbuf.length ≤ 103 ∧ s.rxbuf.length ≤ 256 ∧ s.reqData.length ≤ 95 ∧
  s.sweepIdx ≤ s.registry.length

/-- The handshake's four phases (R14, R67). -/
def Phase.inHandshake (p : Phase) : Prop :=
  p = .hsWakeTx ∨ p = .hsWakeRx ∨ p = .hsSyncTx ∨ p = .hsSyncRx

/-- `port_held` is 1 exactly when `link_state` ≠ `Closed` (R16); the handshake runs only with a port held. -/
def State.portAgrees (s : State) : Prop :=
  (s.portHeld = true ↔ s.link ≠ .closed) ∧ (s.phase.inHandshake → s.link ≠ .closed)

/-- `last_result` and `err` agree (R25, R26): after an error both hold it, else `err` is `None`. While OPEN
releases the port (in `closePort`), `err` holds already the error it will end with, which `raise` wrote
(R10). -/
def State.statusAgrees (s : State) : Prop :=
  match s.task with
  | .releasing e => s.phase = .closePort ∧ s.err = some { fail := e }
  | _ =>
    match s.lastResult with
    | none => s.err = none
    | some (.ok _) => s.err = none
    | some (.err e) => s.err = some e

/-- `Unestablished` exists only inside OPEN (R15, R104): in its handshake, or while it releases the port. -/
def State.unestablishedInOpen (s : State) : Prop :=
  s.link = .unestablished →
    ((∃ path, s.task = .opening path) ∧ s.phase.inHandshake) ∨
    ((∃ e, s.task = .releasing e) ∧ s.phase = .closePort)

/-- The register transactions of host commands run only in `Ready` (R15, R103). -/
def State.transactionsInReady (s : State) : Prop := s.task = .sweeping ∨ s.task = .writing → s.link = .ready

/-- The machine's invariant. -/
def State.Inv (s : State) : Prop :=
  s.inWidths ∧ s.portAgrees ∧ s.unestablishedInOpen ∧ s.transactionsInReady

/-- A register command the block may send (R58, R60, R65): a read of 1 to 4 bytes, or a write of at most
95 bytes. -/
def isCommand (p : List Byte) : Prop :=
  (∃ addr size, 1 ≤ size.toNat ∧ size.toNat ≤ 4 ∧ p = readReqPayload addr size) ∨
  (∃ addr data, data.length ≤ 95 ∧ p = writeReqPayload addr (byteOfNat data.length) data)

/-- What the block may offer to the transmitter (R63): the wake byte, the sync command, or a frame with a
register command. -/
def Event.legal : Event → Prop
  | .tx l _ => l = [0x04] ∨ l = [0x16, 0x00, 0x00] ∨ ∃ p, isCommand p ∧ l = frameOf p
  | .rx _ _ => True
  | .flush => True
  | .portOpen _ _ => True
  | .portClose => True

/-- A host command, or nothing, runs (not an internal operation on its own). -/
def Task.ofHost : Task → Prop
  | .idle => True
  | .opening _ => True
  | .releasing _ => True
  | .sweeping => True
  | .writing => True
  | .closing => True
  | .handshake => False
  | .parse => False
  | .execute _ => False
  | .regRead => False
  | .regWrite => False

/-- Under host commands `last_result` and `err` agree: only they write `last_result` (R26), and an internal
operation run on its own writes `err` when it raises (R10, R25). -/
def State.hostStatus (s : State) : Prop := s.task.ofHost ∧ s.statusAgrees

/-- Under host commands the line carries nothing but legal messages, and what is about to be sent is one. -/
def State.lineLegal (s : State) : Prop :=
  s.task.ofHost ∧ (∀ e ∈ s.trace, e.legal) ∧
  (s.phase = .txFlush → s.txPayload.length ≤ 100 → isCommand s.txPayload) ∧
  (s.phase = .txFrame → s.task ≠ .idle → ∃ p, isCommand p ∧ s.txbuf = frameOf p)

/-! ### What an instruction leaves unchanged -/

/-- `link_state` and `port_held`. -/
def sameLink (s t : State) : Prop := t.link = s.link ∧ t.portHeld = s.portHeld

/-- The wake loop's registers. -/
def sameHandshake (s t : State) : Prop := t.wakeCount = s.wakeCount ∧ t.wakeLast = s.wakeLast

/-- `acc` and `txbuf`. -/
def sameTransmit (s t : State) : Prop := t.acc = s.acc ∧ t.txbuf = s.txbuf

/-- The response registers. -/
def sameResponse (s t : State) : Prop :=
  t.ackByte = s.ackByte ∧ t.startByte = s.startByte ∧ t.declaredSize = s.declaredSize ∧ t.rxbuf = s.rxbuf

/-- The request registers. -/
def sameRequest (s t : State) : Prop :=
  t.reqKind = s.reqKind ∧ t.reqAddr = s.reqAddr ∧ t.reqSize = s.reqSize ∧ t.reqData = s.reqData

/-- The sweep registers. -/
def sameSweep (s t : State) : Prop := t.sweepIdx = s.sweepIdx ∧ t.sweepMap = s.sweepMap

/-- What only the outside writes: the registry, the host's commands to come, the reset input. -/
def sameInputs (s t : State) : Prop :=
  t.registry = s.registry ∧ t.hostq = s.hostq ∧ t.resetIn = s.resetIn

/-! ### Interactions -/

/-- A `TxWrite`. -/
def Event.isTx : Event → Bool
  | .tx _ _ => true
  | .rx _ _ => false
  | .flush => false
  | .portOpen _ _ => false
  | .portClose => false

/-- A `TxWrite` of the wake byte (R68). -/
def Event.isWake : Event → Bool
  | .tx l _ => decide (l = [0x04])
  | .rx _ _ => false
  | .flush => false
  | .portOpen _ _ => false
  | .portClose => false

/-- A `TxWrite` of the sync command (R69). -/
def Event.isSync : Event → Bool
  | .tx l _ => decide (l = [0x16, 0x00, 0x00])
  | .rx _ _ => false
  | .flush => false
  | .portOpen _ _ => false
  | .portClose => false

/-- An `RxRead`. -/
def Event.isRx : Event → Bool
  | .tx _ _ => false
  | .rx _ _ => true
  | .flush => false
  | .portOpen _ _ => false
  | .portClose => false

/-- An `RxFlush`. -/
def Event.isFlush : Event → Bool
  | .tx _ _ => false
  | .rx _ _ => false
  | .flush => true
  | .portOpen _ _ => false
  | .portClose => false

/-- A `PortOpen`. -/
def Event.isOpen : Event → Bool
  | .tx _ _ => false
  | .rx _ _ => false
  | .flush => false
  | .portOpen _ _ => true
  | .portClose => false

/-- A `PortClose`. -/
def Event.isClose : Event → Bool
  | .tx _ _ => false
  | .rx _ _ => false
  | .flush => false
  | .portOpen _ _ => false
  | .portClose => true

/-- The instruction of a host command. -/
def HostCmd.instr : HostCmd → Instr
  | .openCmd path => .openCmd path
  | .getMeasurements => .getMeasurements
  | .writeValue name value => .writeValue name value
  | .closeCmd => .closeCmd

/-! ### How the environment answers -/

/-- The draws of one wake attempt that fails (R68): nothing arrives while the byte is sent, and the read
ends with no byte or with one that is not 0x05. -/
def failedAttempt (a : Draw × Draw) : Prop :=
  a.1.brings [] ∧ (a.2.brings [] ∨ ∃ b, b ≠ 0x05 ∧ a.2.brings [b])

/-- The draws of a list of wake attempts, in order. -/
def attemptDraws (l : List (Draw × Draw)) : List Draw := l.flatMap (fun a => [a.1, a.2])

/-- The byte the last of some wake attempts read, if any. -/
def lastRead (l : List (Draw × Draw)) : Option Byte :=
  match l.getLast? with
  | none => none
  | some a => a.2.arrive.head?

/-- The seven draws of a transaction whose frame of `len` bytes is accepted whole and whose response
`reply` arrives when the ACK is awaited, nothing else arriving from the flush on until the checksum has been
checked; what comes before the flush, or at the last draw, is free. -/
def answers (len : Nat) (reply : List Byte) (ds : List Draw) : Prop :=
  ∃ flush tx ack start size body check, ds = [flush, tx, ack, start, size, body, check] ∧
    flush.late = [] ∧ len ≤ tx.accept ∧ tx.brings [] ∧ ack.brings reply ∧
    start.brings [] ∧ size.brings [] ∧ body.brings []

/-- The draws of a sweep's reading of one entry (R105): a transaction answered by `reply`, the echo check,
the decoding. -/
def answersEntry (reply : List Byte) (ds : List Draw) : Prop :=
  ∃ tr echo decode, ds = tr ++ [echo, decode] ∧ answers 8 reply tr

end Sys2Proof.Machine
end

