-- ==== Sys2Proof/Certificates/Slice0/Obligations.lean ====
section
/-! DEFINITION. The statements for the provers. Each cites the rules of spec/ it states; the numbers of
OBLIGATIONS.json follow the order below. -/

open Sys2Proof Sys2Proof.Machine

/-! ### Encoding (30_encoding.md) -/

/-- Every well-formed message decodes, where it stands, to itself (R50 to R63). -/
def Obligations.DecodeInvertsEncode : Prop :=
  ∀ (i : Instr) (sl : Slot) (l : List Byte), i.wf = true → i.slot = some sl → encode i = some l →
    decode sl l = .instr i

/-- What decodes is the encoding of what it decodes to: no two byte lists are one message, and nothing else
stands for it (R54, R63, R64); that a payload's `SZ` outside the spec's range decodes too is log 40, and
that a request frame decodes whatever its payload's `MSG` and `ACC` log 43: the model's choices. -/
def Obligations.EncodeInvertsDecode : Prop :=
  ∀ (i : Instr) (sl : Slot) (l : List Byte), decode sl l = .instr i →
    i.slot = some sl ∧ encode i = some l

/-- Bytes written out from the spec's encodings decode to the messages they stand for (R51, R58 to R61). -/
def Obligations.WrittenWordsDecode : Prop :=
  decode .wakeTx [0x04] = .instr .wake ∧ decode .wakeRx [0x05] = .instr .wakeAck ∧
  decode .syncTx [0x16, 0x00, 0x00] = .instr .sync ∧ decode .syncRx [0x06] = .instr .syncAck ∧
  decode .rxAck [0x06] = .instr .ack ∧ decode .rxAck [0x15] = .instr .nak ∧
  decode .txFrame [0x41, 0x05, 0x00, 0x01, 0x08, 0x00, 0x02, 0x10] =
    .instr (.reqFrame [0x00, 0x01, 0x08, 0x00, 0x02]) ∧
  decode .rxFrame [0x41, 0x07, 0x01, 0x01, 0x08, 0x00, 0x02, 0xE4, 0x09, 0x00] =
    .instr (.respFrame [0x01, 0x01, 0x08, 0x00, 0x02, 0xE4, 0x09] 0x00) ∧
  decode .payload [0x00, 0x01, 0x08, 0x00, 0x02] = .instr (.readReq 0x0800 0x02) ∧
  decode .payload [0x01, 0x01, 0x08, 0x00, 0x02, 0xE4, 0x09] = .instr (.readRsp 0x0800 0x02 [0xE4, 0x09]) ∧
  decode .payload [0x00, 0x02, 0x23, 0x23, 0x01, 0x01] = .instr (.writeReq 0x2323 [0x01]) ∧
  decode .payload [0x01, 0x02, 0x23, 0x23, 0x01] = .instr (.writeRsp 0x2323 0x01)

/-- The receiving phases that select a byte select exactly the rule's: the decoder recognises 05 in
`HS_WAKE_RX`, 06 in `HS_SYNC_RX`, 06 and 15 in `RX_ACK`, and no byte is never a message; in `RX_START`, shown
under a parse, 41 goes on to `RX_LEN`, and another byte, or none, is `MissingFrameStart` (R63, R64, R76). -/
def Obligations.ReceivedBytesSelected : Prop :=
  (∀ b : Byte,
    (decode .wakeRx [b]).instr? = (if b = 0x05 then some .wakeAck else none) ∧
    (decode .syncRx [b]).instr? = (if b = 0x06 then some .syncAck else none) ∧
    (decode .rxAck [b]).instr? =
      (if b = 0x06 then some .ack else if b = 0x15 then some .nak else none) ∧
    (decode .wakeRx []).instr? = none ∧ (decode .syncRx []).instr? = none ∧
    (decode .rxAck []).instr? = none) ∧
  (∀ s : State, s.phase = .rxStart → s.task = .parse → s.resetIn = [] →
    ∃ t, step s = .next t ∧
      (s.readBytes 1 = [0x41] → t.phase = .rxLen ∧ t.task = .parse ∧ t.startByte = 0x41) ∧
      (s.readBytes 1 ≠ [0x41] → t.task = .idle ∧ t.opResult = some (.err { fail :=
        { kind := .missingFrameStart, got := (s.readBytes 1).head?.map byteVal,
          expected := some 0x41 } }) ∧ t.err = t.opResult.bind Result.errOf))

/-! ### Steps (R13, R14) and reset (R127, R128) -/

/-- A step runs the message that stands before the sequencer in its phase, with no reset due: in the
receiving phases the byte that the phase's read gave, in the sending phases the message to be sent (a
request frame, and the register request that its payload is), in `CHECK` the response frame and then the
reply payload. What the peer appends before the next step (R34; log 2) is the step's, `withPeer`, and not the
message's. The model's choices: that a register request is built and sent by its own meaning is log 27, that one
whose `SZ` is outside the spec's range is run too is log 40, and that a request frame is run whatever its
payload's `MSG` and `ACC` is log 43. -/
def Obligations.StepRunsDecodedMessage : Prop :=
  ∀ (s : State) (i : Instr), s.resetIn = [] → s.task ≠ .idle →
    (s.phase = .hsWakeTx → step s = withPeer (exec .wake s)) ∧
    (s.phase = .hsSyncTx → step s = withPeer (exec .sync s)) ∧
    (s.phase = .txFrame → decode .txFrame s.txbuf = .instr i → step s = withPeer (exec i s)) ∧
    (∀ p addr size, s.phase = .txFrame → decode .txFrame s.txbuf = .instr (.reqFrame p) →
      decode .payload p = .instr (.readReq addr size) → step s = withPeer (exec (.readReq addr size) s)) ∧
    (∀ p addr data, s.phase = .txFrame → decode .txFrame s.txbuf = .instr (.reqFrame p) →
      decode .payload p = .instr (.writeReq addr data) → step s = withPeer (exec (.writeReq addr data) s)) ∧
    (s.phase = .hsWakeRx → decode .wakeRx (s.readBytes 1) = .instr i →
      step s = withPeer (exec i (rxRead 1 s))) ∧
    (s.phase = .hsSyncRx → decode .syncRx (s.readBytes 1) = .instr i →
      step s = withPeer (exec i (rxRead 1 s))) ∧
    (s.phase = .rxAck → decode .rxAck (s.readBytes 1) = .instr i →
      step s = withPeer (exec i (rxRead 1 s))) ∧
    (s.phase = .check → s.rsp = none →
      decode .rxFrame (s.startByte :: s.declaredSize :: s.rxbuf) = .instr i → step s = withPeer (exec i s)) ∧
    (∀ p addr size data, s.phase = .check → s.rsp = some p →
      decode .payload p = .instr (.readRsp addr size data) →
        step s = withPeer (exec (.readRsp addr size data) s)) ∧
    (∀ p addr n, s.phase = .check → s.rsp = some p →
      decode .payload p = .instr (.writeRsp addr n) → step s = withPeer (exec (.writeRsp addr n) s))

/-- The reset input goes before everything (R128; its schedule is log 9): when it is due the running
operation is abandoned with no result, the port is released if it is held, every register has its reset
value, and the next reset is the next entry of the schedule; when it is not, the step is the sequencer's with
the input one step nearer. That a port held at `IDLE` is released by a `PortClose` too is the model's choice
(log 9; R128 says it for busy = 1). -/
def Obligations.ResetInputAbandons : Prop :=
  ∀ s : State,
    (∀ rest, s.resetIn = 0 :: rest → ∃ t, step s = .next t ∧
      t.phase = .idle ∧ t.link = .closed ∧ t.portHeld = false ∧ t.wakeCount = 0 ∧ t.acc = 0 ∧
      t.txbuf = [] ∧ t.sweepIdx = 0 ∧ t.sweepMap = [] ∧ t.err = none ∧ t.lastResult = none ∧
      t.rxq = [] ∧ t.registry = s.registry ∧ t.resetIn = rest ∧
      t.trace = (if s.portHeld then s.trace ++ [.portClose] else s.trace) ∧ t.txLog = s.txLog) ∧
    (∀ k rest, s.resetIn = (k + 1) :: rest →
      step s = withPeer (sequencerStep { s with resetIn := k :: rest }))

/-- What reset leaves, the values R127 gives; and after reset the block waits in `IDLE`: a step with no
command and no reset due changes nothing, whatever the state (R110, R127), but the peer may append to `rxq`
at it as at any step (R34; the draw it comes from is log 1's). -/
def Obligations.ResetLeaves : Prop :=
  State.reset.phase = .idle ∧ State.reset.busy = false ∧ State.reset.link = .closed ∧
  State.reset.portHeld = false ∧ State.reset.wakeCount = 0 ∧ State.reset.acc = 0 ∧
  State.reset.txbuf = [] ∧ State.reset.sweepIdx = 0 ∧ State.reset.sweepMap = [] ∧
  State.reset.err = none ∧ State.reset.lastResult = none ∧ State.reset.rxq = [] ∧
  step State.reset = .next (endStep State.reset) ∧
  (∀ s : State, s.phase = .idle → s.hostq = [] → s.resetIn = [] → step s = .next (endStep s))

/-- A host command walked step by step, from its acceptance at `IDLE`, ends in exactly the state its
instruction's meaning answers. -/
def Obligations.CommandRunsStepByStep : Prop :=
  ∀ (s : State) (c : HostCmd), s.phase = .idle → s.resetIn = [] →
    ∃ t k, exec c.instr s = .next t ∧
      Sys2Proof.core.run k { s with hostq := c :: s.hostq } = .next t

/-- A host command executed while busy = 1 has no move (R103). -/
def Obligations.BusyCommandHasNoMove : Prop :=
  ∀ (s : State) (c : HostCmd), s.busy = true → exec c.instr s = .fault .commandWhileBusy

/-! ### Handshake (R67 to R71) -/

/-- One wake attempt: one `TxWrite` of 04, `wake_count` + 1, the phase `HS_WAKE_RX`, whatever the port
accepts, and nothing else changes. With ten attempts used nothing is sent: HANDSHAKE ends with
`NoHandshakeResponse(last, 0x05)`, and inside OPEN the port is to be released with that error; either way
`raise` writes `err` (R68, R104, R114, R10, R25). -/
def Obligations.WakeAttempt : Prop :=
  ∀ s : State,
    (s.wakeCount < 10 → exec .wake s = .next { s with
      rxq := s.rxq ++ s.nextDraw.arrive
      trace := s.trace ++ [.tx [0x04] (min s.nextDraw.accept 1)]
      wakeCount := s.wakeCount + 1
      phase := .hsWakeRx }) ∧
    (∀ e : Fail, e = { kind := .noHandshakeResponse, got := s.wakeLast.map byteVal, expected := some 0x05 } →
      10 ≤ s.wakeCount →
      (s.task = .handshake → exec .wake s = .next { s with
        err := some { fail := e }
        opResult := some (.err { fail := e })
        task := .idle }) ∧
      (∀ path, s.task = .opening path → exec .wake s = .next { s with
        err := some { fail := e }
        phase := .closePort
        task := .releasing e }))

/-- The wake acknowledge leads to the sync command, the sync command is one `TxWrite` of 16 00 00 whatever
the port accepts, and nothing else changes (R68, R69). -/
def Obligations.SyncFollowsWakeAck : Prop :=
  ∀ s : State,
    exec .wakeAck s = .next { s with wakeLast := some 0x05, phase := .hsSyncTx } ∧
    exec .sync s = .next { s with
      rxq := s.rxq ++ s.nextDraw.arrive
      trace := s.trace ++ [.tx [0x16, 0x00, 0x00] (min s.nextDraw.accept 3)]
      phase := .hsSyncRx }

/-- The sync acknowledge makes the link `Ready` and the handshake return `Ok(())`: inside OPEN that ends
the command, on its own it is the result (R69, R104, R116). The model's readings: that on its own `Ok(())` leaves
`err` as it was is log 14, and that it does all this with no port held too, where the spec gives no outcome, is
log 41. -/
def Obligations.SyncAckMakesReady : Prop :=
  ∀ s : State,
    (∀ path, s.task = .opening path → exec .syncAck s = .next { s with
      link := .ready
      phase := .idle
      task := .idle
      rsp := none
      lastResult := some (.ok .unit)
      err := none }) ∧
    (s.task = .handshake → exec .syncAck s = .next { s with
      link := .ready
      opResult := some (.ok .unit)
      task := .idle })

/-- HANDSHAKE succeeds when an attempt before the eleventh is answered 05 and the sync 06, whatever the
port accepts of its writes: `Ok(())`, `link_state` Ready, `wake_count` the number of attempts; `rxq` holds
what the peer appends after the sync acknowledge (R68, R69, R34). That it runs with no port held too, where the
spec gives no outcome, is log 41, the model's choice. -/
def Obligations.HandshakeSucceeds : Prop :=
  ∀ (s : State) (fails : List (Draw × Draw)) (tx rx sy sr : Draw) (rest : List Draw),
    s.rxq = [] → fails.length < 10 → (∀ a ∈ fails, failedAttempt a) →
    tx.brings [] → rx.brings [0x05] → sy.brings [] → sr.arrive = [0x06] →
    s.script = attemptDraws fails ++ [tx, rx, sy, sr] ++ rest →
    ∃ t, exec .handshake s = .next t ∧ t.opResult = some (.ok .unit) ∧ t.link = .ready ∧
      t.wakeCount = fails.length + 1 ∧ t.rxq = sr.late ∧ t.script = rest ∧ t.task = s.task

/-- Ten failed attempts, timeouts or other bytes, end HANDSHAKE with `NoHandshakeResponse` of the last byte
read: exactly ten 04 were offered, no sync command, and the link stays as it was (R68). -/
def Obligations.HandshakeExhausted : Prop :=
  ∀ (s : State) (fails : List (Draw × Draw)) (rest : List Draw),
    s.rxq = [] → fails.length = 10 → (∀ a ∈ fails, failedAttempt a) →
    s.script = attemptDraws fails ++ rest →
    ∃ t new, exec .handshake s = .next t ∧
      t.opResult = some (.err { fail := { kind := .noHandshakeResponse,
                                          got := (lastRead fails).map byteVal, expected := some 0x05 } }) ∧
      t.wakeCount = 10 ∧ t.link = s.link ∧ t.script = rest ∧
      t.trace = s.trace ++ new ∧ new.countP Event.isTx = 10 ∧
      (∀ l c, Event.tx l c ∈ new → l = [0x04])

/-- A sync answered by another byte than 06, or by none, is `SyncRejected`, after one try: the link is not
made ready (R69). -/
def Obligations.SyncRejectedOnce : Prop :=
  ∀ (s : State) (fails : List (Draw × Draw)) (tx rx sy sr : Draw) (rest : List Draw),
    s.rxq = [] → fails.length < 10 → (∀ a ∈ fails, failedAttempt a) →
    tx.brings [] → rx.brings [0x05] → sy.brings [] →
    (sr.arrive = [] ∨ ∃ b, b ≠ 0x06 ∧ sr.arrive = [b]) →
    s.script = attemptDraws fails ++ [tx, rx, sy, sr] ++ rest →
    ∃ t, exec .handshake s = .next t ∧ t.link = s.link ∧ t.script = rest ∧
      t.opResult = some (.err { fail := { kind := .syncRejected,
                                          got := sr.arrive.head?.map byteVal, expected := some 0x06 } })

/-- From every state and in every environment HANDSHAKE ends: at most ten wake bytes, one sync command, 11
reads of one byte, no flush, no port operation, `err` holds the error if it raises one, and what it leaves
unchanged (R67, R70, R71, R10, R25). That `Ok(())` leaves `err` is log 14, and that it runs with no port held
is log 41: the model's readings. -/
def Obligations.HandshakeBounded : Prop :=
  ∀ s : State, ∃ t new, exec .handshake s = .next t ∧ t.trace = s.trace ++ new ∧
    (new.countP Event.isTx ≤ 11 ∧ new.countP Event.isRx ≤ 11) ∧
    (∀ e ∈ new, (∃ c, e = .tx [0x04] c) ∨ (∃ c, e = .tx [0x16, 0x00, 0x00] c) ∨ ∃ r, e = .rx 1 r) ∧
    new.countP Event.isWake ≤ 10 ∧ new.countP Event.isSync ≤ 1 ∧
    (t.opResult = some (.ok .unit) ∧ t.link = .ready ∧ t.err = s.err ∨
      (∃ f, t.opResult = some (.err { fail := f }) ∧ t.link = s.link ∧ t.err = some { fail := f } ∧
        (f.kind = .noHandshakeResponse ∨ f.kind = .syncRejected))) ∧
    t.portHeld = s.portHeld ∧ sameTransmit s t ∧ sameResponse s t ∧ sameRequest s t ∧
    sameSweep s t ∧ t.lastResult = s.lastResult ∧ sameInputs s t ∧ t.task = s.task ∧ t.rsp = s.rsp

/-! ### Checksum accumulator and frame builder (R72 to R74) -/

/-- `CK_CLEAR`, `CK_ADD` and `CK_RUN` write `acc` and nothing else: 0; (acc + b) mod 256; and after a run
(L + sum(p)) mod 256 (R72, R73). -/
def Obligations.AccumulatorComputesChecksum : Prop :=
  ∀ (s : State) (b len : Byte) (p : List Byte),
    exec .ckClear s = .next { s with acc := 0 } ∧
    exec (.ckAdd b) s = .next { s with acc := BitVec.ofNat 8 ((s.acc.toNat + b.toNat) % 256) } ∧
    exec (.ckRun len p) s =
      .next { s with acc := BitVec.ofNat 8 ((len.toNat + (p.map BitVec.toNat).sum) % 256) }

/-- `BUILD(p)` of at most 100 bytes leaves `41 len p checksum` in `txbuf` and returns it, and the checksum
in `acc`; of more it is `PayloadTooLarge(len(p), 100)` and writes `err` alone (R74, R10, R25). That `Ok` leaves
`err` is log 14, the model's reading. -/
def Obligations.BuildMakesFrame : Prop :=
  ∀ (s : State) (p : List Byte),
    (p.length ≤ 100 → ∃ ck : Byte, ck.toNat = (p.length + (p.map BitVec.toNat).sum) % 256 ∧
      exec (.build p) s = .next { s with
        acc := ck
        txbuf := [0x41, BitVec.ofNat 8 p.length] ++ p ++ [ck]
        opResult := some (.ok (.bytes ([0x41, BitVec.ofNat 8 p.length] ++ p ++ [ck]))) }) ∧
    (∀ e : Fail, e = { kind := .payloadTooLarge, got := some (p.length : Int), expected := some 100 } →
      100 < p.length → exec (.build p) s = .next { s with
        err := some { fail := e }
        opResult := some (.err { fail := e }) })

/-! ### The messages of a transaction (R74 to R79, R84 to R87) -/

/-- `REQ_FRAME`, and `READ_REQ` and `WRITE_REQ` as the frames of their payloads: the frame is built, offered
whole in one `TxWrite`, and when the port accepts all of it the ACK is awaited; nothing else changes (R58,
R60, R74, R82). The model's choices: that a `READ_REQ` whose `SZ` is outside the 1 to 4 of R58 is sent too is
log 40, that a `REQ_FRAME` is sent whatever its payload's `MSG` and `ACC` (R63, R65) is log 43, and that the
message's own meaning builds the frame, anew at `TX_FRAME`, is log 27. -/
def Obligations.RequestFrameTransmitted : Prop :=
  ∀ (s : State) (i : Instr) (p : List Byte),
    (i = .reqFrame p ∨ (∃ addr size, i = .readReq addr size ∧ p = [0x00, 0x01, hi addr, lo addr, size]) ∨
      (∃ addr data, i = .writeReq addr data ∧
        p = [0x00, 0x02, hi addr, lo addr, BitVec.ofNat 8 data.length] ++ data)) →
    p.length ≤ 100 → p.length + 3 ≤ s.nextDraw.accept →
    ∃ ck : Byte, ck.toNat = (p.length + (p.map BitVec.toNat).sum) % 256 ∧
      exec i s = .next { s with
        acc := ck
        txbuf := [0x41, BitVec.ofNat 8 p.length] ++ p ++ [ck]
        rxq := s.rxq ++ s.nextDraw.arrive
        trace := s.trace ++ [.tx ([0x41, BitVec.ofNat 8 p.length] ++ p ++ [ck]) (p.length + 3)]
        phase := .rxAck }

/-- A frame of which the port accepts fewer bytes than it holds is `WriteIncomplete(c, len)`: the first c
bytes are on the line, no read follows, and `EXECUTE` ends (R82, R113). The frame is sent at the second step's
draw, the flush having the first. That a payload that is no register request (R63, R65) is sent too is log 43,
the model's choice. -/
def Obligations.PartialFrameIncomplete : Prop :=
  ∀ (s : State) (p : List Byte) (c : Nat), p.length ≤ 100 → s.afterDraw.nextDraw.accept = c →
    c < p.length + 3 → ∃ t new, exec (.execute p) s = .next t ∧
      t.opResult = some (.err { fail := { kind := .writeIncomplete, got := some (c : Int),
                                          expected := some ((p.length : Int) + 3) } }) ∧
      t.err = t.opResult.bind Result.errOf ∧
      t.trace = s.trace ++ new ∧ new.countP Event.isRx = 0 ∧
      t.txLog = s.txLog ++ (frameOf p).take c

/-- `ACK` is noted in `ack_byte` and the frame start is awaited; `NAK` is noted and raises
`NakReceived(0x15, 0x06)`, which is written to `err` and ends a `PARSE`, `EXECUTE` or register access run on its
own, changing nothing else (R75, R10, R25). -/
def Obligations.AckOrNakRecognised : Prop :=
  ∀ s : State,
    exec .ack s = .next { s with ackByte := 0x06, phase := .rxStart } ∧
    (s.task = .parse ∨ s.task = .regRead ∨ s.task = .regWrite ∨ (∃ p, s.task = .execute p) →
      exec .nak s = .next { s with
        ackByte := 0x15
        err := some { fail := { kind := .nakReceived, got := some 0x15, expected := some 0x06 } }
        opResult := some (.err { fail := { kind := .nakReceived, got := some 0x15,
                                           expected := some 0x06 } })
        task := .idle })

/-- Error entry at the top level (R114, R115, R116), shown on `NAK`: under WRITE_VALUE the command ends with
that error, under GET_MEASUREMENTS with `SensorReadError` of the entry's name and that cause and an empty
map; `phase` is `IDLE`, `err` and `last_result` hold the error, and nothing else changes. -/
def Obligations.ErrorEndsCommand : Prop :=
  ∀ (s : State) (e : Fail), e = { kind := .nakReceived, got := some 0x15, expected := some 0x06 } →
    (s.task = .writing → exec .nak s = .next { s with
      ackByte := 0x15
      phase := .idle
      task := .idle
      rsp := none
      err := some { fail := e }
      lastResult := some (.err { fail := e }) }) ∧
    (∀ (d : SensorDef) (w : Err), s.task = .sweeping → s.registry[s.sweepIdx]? = some d →
      w = { fail := { kind := .sensorReadError, sensor := some d.name }, cause := some e } →
      exec .nak s = .next { s with
        ackByte := 0x15
        phase := .idle
        task := .idle
        rsp := none
        sweepMap := []
        err := some w
        lastResult := some (.err w) })

/-- A response frame of at most 255 payload bytes, its checksum computed over `LEN` and the payload. When the
checksum agrees the payload is the result of a `PARSE` or `EXECUTE` on its own, and goes to the echo check
inside a register access. When it does not, `ChecksumMismatch(received, computed)` ends whatever runs: a line
operation on its own, WRITE_VALUE with that error, a sweep with `SensorReadError` of the entry's name, that
cause and an empty map. The response registers, `acc`, the result and `err` of an error are written and nothing
else (R78, R79, R84, R86, R114, R115, R10, R25). That the `Ok` of a `PARSE` or `EXECUTE` on its own leaves `err`
as it was is log 14, the model's reading. -/
def Obligations.ResponseFrameChecked : Prop :=
  ∀ (s m : State) (p : List Byte) (ck sum : Byte) (e : Fail), p.length ≤ 255 →
    sum.toNat = (p.length + (p.map BitVec.toNat).sum) % 256 →
    m = { s with
      startByte := 0x41
      declaredSize := BitVec.ofNat 8 p.length
      rxbuf := p ++ [ck]
      acc := sum
      phase := .check } →
    e = { kind := .checksumMismatch, got := some (byteVal ck), expected := some (byteVal sum) } →
    (ck = sum →
      (s.task = .parse ∨ (∃ q, s.task = .execute q) → exec (.respFrame p ck) s = .next { m with
        task := .idle
        opResult := some (.ok (.bytes p)) }) ∧
      (s.task = .regRead ∨ s.task = .regWrite ∨ s.task = .sweeping ∨ s.task = .writing →
        exec (.respFrame p ck) s = .next { m with rsp := some p })) ∧
    (ck ≠ sum →
      (s.task = .parse ∨ (∃ q, s.task = .execute q) ∨ s.task = .regRead ∨ s.task = .regWrite →
        exec (.respFrame p ck) s = .next { m with
          task := .idle
          err := some { fail := e }
          opResult := some (.err { fail := e }) }) ∧
      (s.task = .writing → exec (.respFrame p ck) s = .next { m with
        phase := .idle
        task := .idle
        rsp := none
        err := some { fail := e }
        lastResult := some (.err { fail := e }) }) ∧
      (∀ (d : SensorDef) (w : Err), s.task = .sweeping → s.registry[s.sweepIdx]? = some d →
        w = { fail := { kind := .sensorReadError, sensor := some d.name }, cause := some e } →
        exec (.respFrame p ck) s = .next { m with
          phase := .idle
          task := .idle
          rsp := none
          sweepMap := []
          err := some w
          lastResult := some (.err w) }))

/-! ### PARSE (R75 to R81) -/

/-- The five parse steps in order, with `rxq` holding what will be read and nothing more arriving: which
result each content of `rxq` gives, and that an error is written to `err` too (R75 to R79, R113, R117.4, R10,
R25). -/
def Obligations.ParseClassifies : Prop :=
  ∀ (s : State) (d1 d2 d3 d4 d5 : Draw) (rest : List Draw),
    s.script = d1 :: d2 :: d3 :: d4 :: d5 :: rest →
    d1.brings [] → d2.brings [] → d3.brings [] → d4.brings [] → d5.brings [] →
    ∃ t, exec .parse s = .next t ∧
      (∀ e, t.opResult = some (.err e) → t.err = some e) ∧
      (s.rxq = [] → t.opResult = some (.err { fail := { kind := .noAck, expected := some 0x06 } })) ∧
      (∀ r, s.rxq = 0x15 :: r → t.rxq = r ∧ t.opResult = some (.err { fail :=
        { kind := .nakReceived, got := some 0x15, expected := some 0x06 } })) ∧
      (∀ b r, s.rxq = b :: r → b ≠ 0x06 → b ≠ 0x15 → t.rxq = r ∧ t.opResult = some (.err { fail :=
        { kind := .unexpectedAckByte, got := some (byteVal b), expected := some 0x06 } })) ∧
      (s.rxq = [0x06] → t.opResult = some (.err { fail :=
        { kind := .missingFrameStart, expected := some 0x41 } })) ∧
      (∀ b r, s.rxq = 0x06 :: b :: r → b ≠ 0x41 → t.rxq = r ∧ t.opResult = some (.err { fail :=
        { kind := .missingFrameStart, got := some (byteVal b), expected := some 0x41 } })) ∧
      (s.rxq = [0x06, 0x41] → t.opResult = some (.err { fail := { kind := .missingFrameSize } })) ∧
      (∀ len r, s.rxq = 0x06 :: 0x41 :: len :: r → r.length < len.toNat + 1 →
        t.opResult = some (.err { fail := { kind := .frameTooShort, got := some (r.length : Int),
                                            expected := some ((len.toNat : Int) + 1) } })) ∧
      (∀ len p ck r (sum : Byte), s.rxq = 0x06 :: 0x41 :: len :: (p ++ ck :: r) →
        p.length = len.toNat → sum.toNat = (p.length + (p.map BitVec.toNat).sum) % 256 →
        t.rxq = r ∧
        (ck ≠ sum → t.opResult = some (.err { fail := { kind := .checksumMismatch,
                                                        got := some (byteVal ck),
                                                        expected := some (byteVal sum) } })) ∧
        (ck = sum → t.opResult = some (.ok (.bytes p))))

/-- Round trip: for every payload of at most 100 bytes, a parse whose `rxq` begins 06 and then the frame
that `BUILD` returns gives the payload back, whatever else the peer sends (R81). -/
def Obligations.ParseInvertsBuild : Prop :=
  ∀ (s : State) (p : List Byte), p.length ≤ 100 →
    ∃ u f, exec (.build p) s = .next u ∧ u.opResult = some (.ok (.bytes f)) ∧
      ∀ (v : State) (r : List Byte), v.rxq = 0x06 :: f ++ r →
        ∃ t, exec .parse v = .next t ∧ t.opResult = some (.ok (.bytes p))

/-- The parse's reads: one byte, one byte, one byte, then `declared_size` + 1 bytes, and none after the
step that failed (R80). -/
def Obligations.ParseReadsInOrder : Prop :=
  ∀ s : State, ∃ t new, exec .parse s = .next t ∧ t.trace = s.trace ++ new ∧
    ((∃ r, r ≠ [0x06] ∧ new = [.rx 1 r]) ∨
     (∃ r, r ≠ [0x41] ∧ new = [.rx 1 [0x06], .rx 1 r]) ∨
     new = [.rx 1 [0x06], .rx 1 [0x41], .rx 1 []] ∨
     (∃ (len : Byte) (body : List Byte),
       new = [.rx 1 [0x06], .rx 1 [0x41], .rx 1 [len], .rx (len.toNat + 1) body] ∧
       t.declaredSize = len ∧ t.rxbuf = body))

/-! ### EXECUTE (R82, R83) -/

/-- A transaction answered in full: the stale bytes are flushed, the frame of p is sent whole, and the
payload of the response is returned; `rxq` holds what the peer appends at the last step (R82, R34). That a p that
is no register request (R63, R65) is sent too is log 43, the model's choice. -/
def Obligations.ExecuteReturnsPayload : Prop :=
  ∀ (s : State) (p q : List Byte) (ds rest : List Draw), p.length ≤ 100 → q.length ≤ 255 →
    s.script = ds ++ rest → answers (p.length + 3) (0x06 :: frameOf q) ds →
    ∃ t, exec (.execute p) s = .next t ∧ t.opResult = some (.ok (.bytes q)) ∧
      (∀ check, ds.getLast? = some check → t.rxq = check.late) ∧
      t.script = rest ∧ t.txbuf = frameOf p ∧
      t.trace = s.trace ++ [.flush, .tx (frameOf p) (p.length + 3), .rx 1 [0x06], .rx 1 [0x41],
        .rx 1 [BitVec.ofNat 8 q.length], .rx (q.length + 1) (q ++ [checksum (byteOfNat q.length) q])]

/-- A payload of more than 100 bytes: the flush happens, nothing is sent, and the result is
`PayloadTooLarge(len, 100)`; `acc` and `txbuf` are not written. So a write of more than 95 bytes, of any
length, is `PayloadTooLarge(5 + n, 100)` (R82, R74, R86). What `req_data` then holds, some 0 to 95 bytes, and
`req_size` beyond 255, is open, and the operand stands in the model's `callData` (log 17). `raise` writes `err`
(R10, R25). -/
def Obligations.LongPayloadFlushesOnly : Prop :=
  ∀ (s : State) (p : List Byte) (addr : Addr) (data : List Byte),
    (100 < p.length → exec (.execute p) s = .next (endStep { s with
      rxq := []
      trace := s.trace ++ [.flush]
      phase := .txFlush
      rsp := none
      err := some { fail := { kind := .payloadTooLarge, got := some (p.length : Int), expected := some 100 } }
      opResult := some (.err { fail := { kind := .payloadTooLarge, got := some (p.length : Int),
                                         expected := some 100 } }) })) ∧
    (95 < data.length → ∃ (n : Byte) (held : List Byte),
      (data.length ≤ 255 → n = BitVec.ofNat 8 data.length) ∧ held.length ≤ 95 ∧
      exec (.regWrite addr data) s = .next (endStep { s with
        rxq := []
        trace := s.trace ++ [.flush]
        phase := .txFlush
        rsp := none
        reqKind := .write
        reqAddr := addr
        reqSize := n
        reqData := held
        callData := data
        err := some { fail := { kind := .payloadTooLarge, got := some (5 + (data.length : Int)),
                                expected := some 100 } }
        opResult := some (.err { fail := { kind := .payloadTooLarge, got := some (5 + (data.length : Int)),
                                           expected := some 100 } }) }))

/-- `EXECUTE` owns no state across calls: from any two states in the same environment it sends the same
bytes, reads the same and returns the same, whatever earlier transactions left in the registers or in
`rxq` (R83). -/
def Obligations.ExecuteKeepsNoState : Prop :=
  ∀ (s1 s2 : State) (p : List Byte), s1.script = s2.script → s1.draws = s2.draws →
    ∃ t1 t2 new, exec (.execute p) s1 = .next t1 ∧ exec (.execute p) s2 = .next t2 ∧
      t1.opResult = t2.opResult ∧ t1.trace = s1.trace ++ new ∧ t2.trace = s2.trace ++ new ∧
      t1.rxq = t2.rxq ∧ t1.phase = t2.phase

/-- What `PARSE`, `EXECUTE`, `REG_READ` and `REG_WRITE` leave unchanged in every environment: the link, the
wake loop, the sweep, `last_result`, the configuration; a parse and a transaction also the request registers, a
parse `txbuf`, a read `req_data` (R75 to R79, R82, R84, R86 "State written"). `err` holds the error when one is
raised (R10, R25); that it keeps its value after `Ok` is log 14, the model's reading. -/
def Obligations.TransactionFrames : Prop :=
  ∀ (s t : State) (i : Instr), exec i s = .next t →
    (i = .parse ∨ (∃ p, i = .execute p) ∨ (∃ addr size, i = .regRead addr size) ∨
      (∃ addr data, i = .regWrite addr data)) →
    sameLink s t ∧ sameHandshake s t ∧ sameSweep s t ∧ t.lastResult = s.lastResult ∧ sameInputs s t ∧
    t.task = s.task ∧
    (∃ r, t.opResult = some r ∧ ((∃ v, r = .ok v) ∧ t.err = s.err ∨ ∃ e, r = .err e ∧ t.err = some e)) ∧
    (i = .parse → sameRequest s t ∧ t.txbuf = s.txbuf) ∧
    (∀ p, i = .execute p → sameRequest s t) ∧
    (∀ addr size, i = .regRead addr size → t.reqData = s.reqData)

/-! ### Register client (R84 to R87) -/

/-- A read of 1 to 4 bytes answered by the matching reply: the request frame is sent, exactly its bytes go on
the line, the echo check passes, and the data bytes are returned (R84, R85, R30). -/
def Obligations.RegReadReturnsData : Prop :=
  ∀ (s : State) (addr : Addr) (data : List Byte) (ds rest : List Draw)
    (echo : Draw),
    1 ≤ data.length → data.length ≤ 4 → s.script = ds ++ echo :: rest →
    answers 8 (0x06 :: frameOf ([0x01, 0x01, hi addr, lo addr, BitVec.ofNat 8 data.length] ++ data)) ds →
    ∃ t, exec (.regRead addr (data.length : Int)) s = .next t ∧
      t.opResult = some (.ok (.bytes data)) ∧ t.reqKind = .read ∧ t.reqAddr = addr ∧
      t.reqSize = BitVec.ofNat 8 data.length ∧ t.script = rest ∧
      t.txbuf = frameOf [0x00, 0x01, hi addr, lo addr, BitVec.ofNat 8 data.length] ∧
      t.txLog = s.txLog ++ frameOf [0x00, 0x01, hi addr, lo addr, BitVec.ofNat 8 data.length]

/-- A read size outside 1 to 4 is `InvalidSize(size)` with no interaction, and no register but `err` is written
(R84, R10, R25). -/
def Obligations.RegReadSizeChecked : Prop :=
  ∀ (s : State) (addr : Addr) (size : Int), size < 1 ∨ 4 < size →
    exec (.regRead addr size) s = .next { s with
      err := some { fail := { kind := .invalidSize, got := some size } }
      opResult := some (.err { fail := { kind := .invalidSize, got := some size } }) }

/-- `READ_CHECK` passes exactly the replies 01 01 AH AL SZ and then SZ data bytes that echo the request;
every other is `InvalidReadResponse` (R85, R59); only the result is written, and `err` of the error (R10, R25).
That passing leaves `err` is log 14, the model's reading. -/
def Obligations.ReadCheckExact : Prop :=
  ∀ (s : State) (rsp : List Byte),
    (∀ data, data.length = s.reqSize.toNat →
      rsp = [0x01, 0x01, hi s.reqAddr, lo s.reqAddr, s.reqSize] ++ data →
      exec (.readCheck rsp) s = .next { s with opResult := some (.ok .unit) }) ∧
    ((¬ ∃ data, data.length = s.reqSize.toNat ∧
      rsp = [0x01, 0x01, hi s.reqAddr, lo s.reqAddr, s.reqSize] ++ data) →
      exec (.readCheck rsp) s = .next { s with
        err := some { fail := { kind := .invalidReadResponse } }
        opResult := some (.err { fail := { kind := .invalidReadResponse } }) })

/-- A write of at most 95 bytes answered by the matching reply: exactly the bytes of its request frame go on the
line, and it ends `Ok(())`; the request registers hold the write (R86, R87, R30). -/
def Obligations.RegWriteCompletes : Prop :=
  ∀ (s : State) (addr : Addr) (data : List Byte) (ds rest : List Draw)
    (echo : Draw),
    data.length ≤ 95 → s.script = ds ++ echo :: rest →
    answers (data.length + 8)
      (0x06 :: frameOf [0x01, 0x02, hi addr, lo addr, BitVec.ofNat 8 data.length]) ds →
    ∃ t, exec (.regWrite addr data) s = .next t ∧ t.opResult = some (.ok .unit) ∧
      t.reqKind = .write ∧ t.reqAddr = addr ∧ t.reqSize = BitVec.ofNat 8 data.length ∧
      t.reqData = data ∧ t.script = rest ∧
      t.txbuf = frameOf ([0x00, 0x02, hi addr, lo addr, BitVec.ofNat 8 data.length] ++ data) ∧
      t.txLog = s.txLog ++ frameOf ([0x00, 0x02, hi addr, lo addr, BitVec.ofNat 8 data.length] ++ data)

/-- `WRITE_CHECK`: the order length, address, message type, access type, size (R87); only the result is
written, and `err` of the error (R10, R25). That passing leaves `err` is log 14, the model's reading. -/
def Obligations.WriteCheckPriority : Prop :=
  ∀ (s : State) (rsp : List Byte) (bad : Fail → State),
    bad = (fun e => { s with err := some { fail := e }, opResult := some (.err { fail := e }) }) →
    (rsp.length ≠ 5 → exec (.writeCheck rsp) s = .next (bad
      { kind := .wrongLength, got := some (rsp.length : Int), expected := some 5 })) ∧
    (∀ m a ah al n, rsp = [m, a, ah, al, n] →
      (ah.toNat * 256 + al.toNat ≠ s.reqAddr.toNat →
        exec (.writeCheck rsp) s = .next (bad
          { kind := .wrongAddress, got := some ((ah.toNat : Int) * 256 + (al.toNat : Int)),
            expected := some (s.reqAddr.toNat : Int) })) ∧
      (ah.toNat * 256 + al.toNat = s.reqAddr.toNat → m ≠ 0x01 →
        exec (.writeCheck rsp) s = .next (bad
          { kind := .wrongMessageType, got := some (byteVal m), expected := some 0x01 })) ∧
      (ah.toNat * 256 + al.toNat = s.reqAddr.toNat → m = 0x01 → a ≠ 0x02 →
        exec (.writeCheck rsp) s = .next (bad
          { kind := .wrongAccessType, got := some (byteVal a), expected := some 0x02 })) ∧
      (ah.toNat * 256 + al.toNat = s.reqAddr.toNat → m = 0x01 → a = 0x02 → n ≠ s.reqSize →
        exec (.writeCheck rsp) s = .next (bad
          { kind := .wrongSize, got := some (byteVal n), expected := some (byteVal s.reqSize) })) ∧
      (ah.toNat * 256 + al.toNat = s.reqAddr.toNat → m = 0x01 → a = 0x02 → n = s.reqSize →
        exec (.writeCheck rsp) s = .next { s with opResult := some (.ok .unit) }))

/-- A reply message under a register access run on its own, against the pending request. `READ_RSP` under a
read: its data when address, size and data length all agree, else `InvalidReadResponse`; under a write it is
`WrongLength` when it carries data, else `WrongAddress`, else `WrongAccessType`. `WRITE_RSP` under a write:
`WrongAddress`, else `WrongSize`, else `Ok(())`; under a read it is `InvalidReadResponse` (R85, R87). An error is
written to `err` (R10, R25). That `req_kind` picks the check is log 28, and that `Ok` leaves `err` log 14: the
model's readings. -/
def Obligations.ReplyMessagesChecked : Prop :=
  ∀ (s : State) (addr : Addr) (n : Byte) (data read write : List Byte) (good : List Byte → OkVal → State)
    (bad : List Byte → Fail → State),
    read = [0x01, 0x01, hi addr, lo addr, n] ++ data → write = [0x01, 0x02, hi addr, lo addr, n] →
    good = (fun p v => { s with
      phase := .check
      task := .idle
      rsp := some p
      opResult := some (.ok v) }) →
    bad = (fun p e => { s with
      phase := .check
      task := .idle
      rsp := some p
      err := some { fail := e }
      opResult := some (.err { fail := e }) }) →
    (s.task = .regRead → s.reqKind = .read →
      exec (.readRsp addr n data) s = .next (
        if addr = s.reqAddr ∧ n = s.reqSize ∧ data.length = n.toNat then good read (.bytes data)
        else bad read { kind := .invalidReadResponse }) ∧
      exec (.writeRsp addr n) s = .next (bad write { kind := .invalidReadResponse })) ∧
    (s.task = .regWrite → s.reqKind = .write →
      exec (.writeRsp addr n) s = .next (
        if addr ≠ s.reqAddr then
          bad write { kind := .wrongAddress, got := some (addr.toNat : Int),
                      expected := some (s.reqAddr.toNat : Int) }
        else if n ≠ s.reqSize then
          bad write { kind := .wrongSize, got := some (byteVal n), expected := some (byteVal s.reqSize) }
        else good write .unit) ∧
      exec (.readRsp addr n data) s = .next (bad read (
        if data ≠ [] then
          { kind := .wrongLength, got := some (5 + (data.length : Int)), expected := some 5 }
        else if addr ≠ s.reqAddr then
          { kind := .wrongAddress, got := some (addr.toNat : Int), expected := some (s.reqAddr.toNat : Int) }
        else { kind := .wrongAccessType, got := some 0x01, expected := some 0x02 })))

/-! ### Register codec (R88 to R102) -/

/-- The decoders, of exactly `size` bytes, 1 to 4, byte 0 least significant: unsigned Σ b[i]·256^i; signed
that sum less 2^(8·size) when bit 7 of the last byte is set; scaled the signed integer kept exact beside its
divisor; and `DECODE` the decoder of its kind. Only the result is written (R90 to R94, "State written: none").
That `Ok` leaves `err` is log 14, the model's reading. -/
def Obligations.DecodersComputeValues : Prop :=
  ∀ (s : State) (b : List Byte) (size divisor : Nat) (u z : Int) (done : Value → State),
    1 ≤ size → size ≤ 4 → b.length = size →
    u = ((∑ i ∈ Finset.range size, (b.getD i 0).toNat * 256 ^ i : Nat) : Int) →
    z = (if (b.getD (size - 1) 0).toNat < 128 then u else u - 2 ^ (8 * size)) →
    done = (fun v => { s with opResult := some (.ok (.value v)) }) →
    exec (.decodeUnsigned b size) s = .next (done (.int u)) ∧
    exec (.decodeSigned b size) s = .next (done (.int z)) ∧
    exec (.decodeScaled b size divisor) s = .next (done (.scaled z divisor)) ∧
    exec (.decode (.unsignedInt size) b) s = .next (done (.int u)) ∧
    exec (.decode (.signedInt size) b) s = .next (done (.int z)) ∧
    exec (.decode (.scaledFloat size divisor) b) s = .next (done (.scaled z divisor))

/-- `ENCODE_UNSIGNED` at sizes 1 to 4: the value is truncated toward zero; inside 0 .. 2^(8·size) − 1 the
result is its `size` little-endian bytes, outside, or for a value that is not finite, `ValueOutOfRange`;
only the result is written, and `err` of the error (R95, R10, R25). That `Ok` leaves `err` is log 14, the
model's reading. -/
def Obligations.EncoderTruncatesAndBounds : Prop :=
  ∀ (s : State) (v : HostNum) (size : Nat), 1 ≤ size → size ≤ 4 →
    (∀ t : Int, v.truncatesTo t →
      (0 ≤ t → t < 2 ^ (8 * size) → ∃ b : List Byte, b.length = size ∧
        (∀ i < size, b.getD i 0 = BitVec.ofNat 8 (t.toNat / 256 ^ i)) ∧
        exec (.encodeUnsigned v size) s = .next { s with opResult := some (.ok (.bytes b)) }) ∧
      (t < 0 ∨ 2 ^ (8 * size) ≤ t → exec (.encodeUnsigned v size) s = .next { s with
        err := some { fail := { kind := .valueOutOfRange } }
        opResult := some (.err { fail := { kind := .valueOutOfRange } }) })) ∧
    (v = .nonFinite → exec (.encodeUnsigned v size) s = .next { s with
        err := some { fail := { kind := .valueOutOfRange } }
        opResult := some (.err { fail := { kind := .valueOutOfRange } }) })

/-- The unsigned encoder and decoder are mutual inverses at sizes 1 to 4 (R96). Only the result is written (R92,
R95, "State written: none"); that `Ok` leaves `err` is log 14, the model's reading. -/
def Obligations.UnsignedCodecInverse : Prop :=
  ∀ (s : State) (size : Nat), 1 ≤ size → size ≤ 4 →
    (∀ z : Int, 0 ≤ z → z ≤ 2 ^ (8 * size) - 1 →
      ∃ b, exec (.encodeUnsigned (.int z) size) s = .next { s with opResult := some (.ok (.bytes b)) } ∧
        exec (.decodeUnsigned b size) s = .next { s with opResult := some (.ok (.value (.int z))) }) ∧
    (∀ b : List Byte, b.length = size →
      ∃ z, exec (.decodeUnsigned b size) s = .next { s with opResult := some (.ok (.value (.int z))) } ∧
        exec (.encodeUnsigned (.int z) size) s = .next { s with opResult := some (.ok (.bytes b)) })

/-- `MODE_TEXT` and `VALVE_TEXT` by exact numeric value: an integer k, or a scaled value equal to k; a scaled
value that is no integer is "UNKNOWN"; the texts are the exact strings (R98 to R100). That only the result is
written, and `Ok` leaves `err`, is log 14, the model's reading. -/
def Obligations.TextTables : Prop :=
  ∀ (s : State) (v : Value),
    ∃ m w : Text,
      exec (.modeText v) s = .next { s with opResult := some (.ok (.text m)) } ∧
      exec (.valveText v) s = .next { s with opResult := some (.ok (.text w)) } ∧
      (∀ k : Int, (v = .int k ∨ ∃ d : Nat, 0 < d ∧ v = .scaled (k * (d : Int)) d) →
        m.str = (if k = 0 then "OFF" else if k = 1 then "Warm Water"
          else if k = 2 then "Heating & Warm Water" else "UNKNOWN") ∧
        w.str = (if k = 0 then "Undefined" else if k = 1 then "Heating"
          else if k = 2 then "Mid Position" else if k = 3 then "Warm Water" else "UNKNOWN")) ∧
      (∀ (z : Int) (d : Nat), 0 < d → ¬ (d : Int) ∣ z → v = .scaled z d →
        m.str = "UNKNOWN" ∧ w.str = "UNKNOWN")

/-- `LOOKUP` in a registry of unique names: the entry with exactly that name, `None` when there is none (R101,
R102). That only the result is written, and `Ok` leaves `err`, is log 14, the model's reading. -/
def Obligations.LookupFindsByName : Prop :=
  ∀ (s : State) (name : String), uniqueNames (s.registry.map SensorDef.name) = true →
    (∀ d ∈ s.registry, d.name = name → exec (.lookup name) s =
      .next { s with opResult := some (.ok (.sensor (some d))) }) ∧
    ((∀ d ∈ s.registry, d.name ≠ name) → exec (.lookup name) s =
      .next { s with opResult := some (.ok (.sensor none)) })

/-- `ADD_DERIVED`: "mode_text" is the mode's text when "mode" is in the map, "three_way_valve_pos_text" the
valve's when "three_way_valve_pos" is; every other name, and a text whose source is not in the map, is as it
was (R106). The model's readings: that only the result is written, `sweep_map` and every other register being as
it was, is log 36, and that `Ok` leaves `err` log 14. -/
def Obligations.DerivedTextsAdded : Prop :=
  ∀ (s : State) (m : SweepMap), ∃ m', exec (.addDerived m) s =
      .next { s with opResult := some (.ok (.map m')) } ∧
    (∀ name, name ≠ "mode_text" → name ≠ "three_way_valve_pos_text" → mapGet m' name = mapGet m name) ∧
    (∀ v, mapGet m "mode" = some (.num v) → mapGet m' "mode_text" = some (.text (modeTextOf v))) ∧
    (mapGet m "mode" = none → mapGet m' "mode_text" = mapGet m "mode_text") ∧
    (∀ v, mapGet m "three_way_valve_pos" = some (.num v) →
      mapGet m' "three_way_valve_pos_text" = some (.text (valveTextOf v))) ∧
    (mapGet m "three_way_valve_pos" = none →
      mapGet m' "three_way_valve_pos_text" = mapGet m "three_way_valve_pos_text")

/-! ### Host commands (R103 to R110) -/

/-- A command in the wrong link state ends at once with `NotReady`: OPEN unless `Closed`, GET_MEASUREMENTS
and WRITE_VALUE unless `Ready`; nothing is sent and nothing but the result changes, and what the peer appends
at the step (R103, R34). -/
def Obligations.WrongLinkStateNotReady : Prop :=
  ∀ (s : State) (c : HostCmd), s.phase = .idle →
    ((∃ path, c = .openCmd path) ∧ s.link ≠ .closed ∨
      (c = .getMeasurements ∨ ∃ name v, c = .writeValue name v) ∧ s.link ≠ .ready) →
    exec c.instr s = .next (endStep { s with
      task := .idle
      rsp := none
      err := some { fail := { kind := .notReady } }
      lastResult := some (.err { fail := { kind := .notReady } }) })

/-- OPEN with a port that opens and a handshake that succeeds ends `Ok(())` with the link `Ready` and the
port held, `IDLE` again (R104, R116); the registers of transactions and sweeps are as they were. -/
def Obligations.OpenEstablishesLink : Prop :=
  ∀ (s : State) (path : String) (fails : List (Draw × Draw)) (ac po tx rx sy sr : Draw) (rest : List Draw),
    s.phase = .idle → s.link = .closed → po.portOk = true → po.late = [] →
    fails.length < 10 → (∀ a ∈ fails, failedAttempt a) →
    tx.brings [] → rx.brings [0x05] → sy.brings [] → sr.arrive = [0x06] →
    s.script = ac :: po :: attemptDraws fails ++ [tx, rx, sy, sr] ++ rest →
    ∃ t, exec (.openCmd path) s = .next t ∧ t.lastResult = some (.ok .unit) ∧ t.err = none ∧
      t.link = .ready ∧ t.portHeld = true ∧ t.phase = .idle ∧ t.task = .idle ∧
      t.wakeCount = fails.length + 1 ∧ t.rxq = sr.late ∧ t.script = rest ∧
      sameTransmit s t ∧ sameResponse s t ∧ sameRequest s t ∧ sameSweep s t ∧ sameInputs s t

/-- OPEN of a port that does not open is `PortOpenFailed`: `link_state` stays `Closed`, nothing is sent
(R104). The command takes two steps, its acceptance and the port's. -/
def Obligations.OpenPortRefused : Prop :=
  ∀ (s : State) (path : String), s.phase = .idle → s.link = .closed →
    (endStep s).nextDraw.portOk = false →
    exec (.openCmd path) s = .next (endStep { endStep s with
      task := .idle
      rsp := none
      trace := s.trace ++ [.portOpen path false]
      err := some { fail := { kind := .portOpenFailed } }
      lastResult := some (.err { fail := { kind := .portOpenFailed } }) })

/-- OPEN whose handshake fails, by ten attempts without an answer (`NoHandshakeResponse`) or by a sync not
answered by 06 (`SyncRejected`), ends with that error after the port is released: `link_state` is `Closed`
again and the last interaction is the `PortClose` (R104, R68, R69). That what is left in `rxq` goes with the port
is log 13, deduced from D29, the model's reading. -/
def Obligations.FailedOpenReleasesPort : Prop :=
  ∀ (s : State) (path : String) (fails : List (Draw × Draw)) (ac po cl : Draw) (sync rest : List Draw)
    (e : Fail),
    s.phase = .idle → s.link = .closed → po.portOk = true → po.late = [] →
    (∀ a ∈ fails, failedAttempt a) →
    (fails.length = 10 ∧ sync = [] ∧
        e = { kind := .noHandshakeResponse, got := (lastRead fails).map byteVal, expected := some 0x05 } ∨
      fails.length < 10 ∧ ∃ tx rx sy sr : Draw, sync = [tx, rx, sy, sr] ∧
        tx.brings [] ∧ rx.brings [0x05] ∧ sy.brings [] ∧
        (sr.arrive = [] ∨ ∃ b, b ≠ 0x06 ∧ sr.arrive = [b]) ∧
        e = { kind := .syncRejected, got := sr.arrive.head?.map byteVal, expected := some 0x06 }) →
    s.script = ac :: po :: attemptDraws fails ++ sync ++ cl :: rest →
    ∃ t new, exec (.openCmd path) s = .next t ∧ t.link = .closed ∧ t.portHeld = false ∧
      t.phase = .idle ∧ t.wakeCount = min 10 (fails.length + 1) ∧ t.rxq = cl.late ∧ t.script = rest ∧
      t.trace = s.trace ++ new ++ [.portClose] ∧
      t.lastResult = some (.err { fail := e }) ∧ t.err = some { fail := e }

/-- A sweep of a well-formed registry whose every read is answered returns the map of every entry's decoded
value, with the derived texts added, sends exactly the read requests of the entries, in registry order, and
leaves the last index in `sweep_idx` (R105, R106; what an empty registry leaves there is log 35's). That the map is
a list in the order of assignment is log 22, the model's choice. -/
def Obligations.SweepReturnsMap : Prop :=
  ∀ (s : State) (xs : List (List Byte × List Draw)) (ac : Draw) (rest : List Draw),
    s.phase = .idle → s.link = .ready → registryWf s.registry = true →
    List.Forall₂ (fun d x => x.1.length = d.size ∧
      answersEntry (0x06 :: frameOf (readRspPayload d.addr (byteOfNat d.size) x.1)) x.2) s.registry xs →
    s.script = ac :: xs.flatMap Prod.snd ++ rest →
    ∃ t, exec .getMeasurements s = .next t ∧
      t.lastResult = some (.ok (.map (addDerived
        (List.zipWith (fun d x => (d.name, Field.num (decodeKind d.kind x.1))) s.registry xs)))) ∧
      t.err = none ∧ t.phase = .idle ∧ t.script = rest ∧
      t.txLog = s.txLog ++ s.registry.flatMap (fun d =>
        frameOf [0x00, 0x01, hi d.addr, lo d.addr, BitVec.ofNat 8 d.size]) ∧
      (s.registry ≠ [] → t.sweepIdx = s.registry.length - 1) ∧
      sameLink s t ∧ sameHandshake s t ∧ sameInputs s t

/-- A sweep stops at the first entry whose read fails, with any error: whatever error c the entry's `REG_READ`
ends with in the environment that is left after the entries before it, the sweep ends with `SensorReadError`
of that entry's name with the cause c, with no partial map, with the interactions of that read as its last,
and no frame for a later entry; `sweep_idx` is at the entry (R105, R118). -/
def Obligations.SweepStopsAtFailure : Prop :=
  ∀ (s u v : State) (before after : List SensorDef) (d : SensorDef) (xs : List (List Byte × List Draw))
    (ac : Draw) (rest : List Draw) (c : Fail) (last : List Event),
    s.phase = .idle → s.link = .ready → registryWf s.registry = true →
    s.registry = before ++ d :: after →
    List.Forall₂ (fun d x => x.1.length = d.size ∧
      answersEntry (0x06 :: frameOf (readRspPayload d.addr (byteOfNat d.size) x.1)) x.2) before xs →
    s.script = ac :: xs.flatMap Prod.snd ++ rest →
    u.script = rest → u.draws = s.draws → exec (.regRead d.addr (d.size : Int)) u = .next v →
    v.opResult = some (.err { fail := c }) → v.trace = u.trace ++ last →
    ∃ t pre, exec .getMeasurements s = .next t ∧
      (∃ w : Err, w = { fail := { kind := .sensorReadError, sensor := some d.name }, cause := some c } ∧
        t.lastResult = some (.err w) ∧ t.err = some w) ∧
      t.sweepMap = [] ∧ t.sweepIdx = before.length ∧ t.link = .ready ∧ t.phase = .idle ∧
      t.script = v.script ∧ t.rxq = v.rxq ∧
      t.trace = s.trace ++ pre ++ last ∧ pre.countP Event.isTx = before.length ∧
      last.countP Event.isTx ≤ 1

/-- WRITE_VALUE's checks in order, each before any line traffic: `UnknownSensor`, `NotWritable`,
`ValueOutOfRange` (of the value truncated toward zero, or a value that is not finite), each with the sensor's
name (R107, R95, R117.2). -/
def Obligations.WriteValueChecksFirst : Prop :=
  ∀ (s : State) (name : String) (v : HostNum) (kind : ErrKind), s.phase = .idle → s.link = .ready →
    (lookupName s.registry name = none ∧ kind = .unknownSensor ∨
      (∃ d, lookupName s.registry name = some d ∧
        (((∀ n, d.kind ≠ .unsignedInt n) ∧ kind = .notWritable) ∨
         ((∃ n, d.kind = .unsignedInt n) ∧ kind = .valueOutOfRange ∧ 1 ≤ d.size ∧ d.size ≤ 4 ∧
          (v = .nonFinite ∨ ∃ t, v.truncatesTo t ∧ (t < 0 ∨ 2 ^ (8 * d.size) ≤ t)))))) →
    exec (.writeValue name v) s = .next (endStep { s with
      task := .idle
      rsp := none
      err := some { fail := { kind := kind, sensor := some name } }
      lastResult := some (.err { fail := { kind := kind, sensor := some name } }) })

/-- WRITE_VALUE of a number, an integer or a finite real, that truncates to z, which fits a writable sensor,
answered by the matching reply: exactly the frame that writes the `size` little-endian bytes of z goes on the
line, and the result is `Ok(())` (R107, R86, R95, R30). -/
def Obligations.WriteValueCompletes : Prop :=
  ∀ (s : State) (name : String) (v : HostNum) (d : SensorDef) (n : Nat) (z : Int) (data : List Byte)
    (ac echo : Draw) (ds rest : List Draw),
    s.phase = .idle → s.link = .ready → lookupName s.registry name = some d → d.wf = true →
    d.kind = .unsignedInt n → v.truncatesTo z → 0 ≤ z → z < 2 ^ (8 * d.size) → data.length = d.size →
    (∀ i < d.size, data.getD i 0 = BitVec.ofNat 8 (z.toNat / 256 ^ i)) →
    s.script = ac :: ds ++ echo :: rest →
    answers (d.size + 8)
      (0x06 :: frameOf [0x01, 0x02, hi d.addr, lo d.addr, BitVec.ofNat 8 d.size]) ds →
    ∃ t, exec (.writeValue name v) s = .next t ∧ t.lastResult = some (.ok .unit) ∧
      t.err = none ∧ t.phase = .idle ∧ t.script = rest ∧ t.reqAddr = d.addr ∧ t.reqData = data ∧
      t.txbuf = frameOf ([0x00, 0x02, hi d.addr, lo d.addr, BitVec.ofNat 8 d.size] ++ data) ∧
      t.txLog = s.txLog ++ frameOf ([0x00, 0x02, hi d.addr, lo d.addr, BitVec.ofNat 8 d.size] ++ data) ∧
      sameLink s t ∧ sameHandshake s t ∧ sameSweep s t ∧ sameInputs s t

/-- CLOSE releases the port and ends `Ok(())` in two steps, its acceptance and the port's; with no port held it
is a no-op (R108). That `rxq` is emptied with the port is log 13, deduced from D29. -/
def Obligations.CloseReleasesPort : Prop :=
  ∀ s : State, s.phase = .idle →
    (s.link ≠ .closed → exec .closeCmd s = .next (endStep { endStep s with
      task := .idle
      rsp := none
      link := .closed
      portHeld := false
      rxq := []
      trace := s.trace ++ [.portClose]
      lastResult := some (.ok .unit)
      err := none })) ∧
    (s.link = .closed → exec .closeCmd s = .next (endStep { s with
      task := .idle
      rsp := none
      lastResult := some (.ok .unit)
      err := none }))

/-- Every host command ends, in every environment: `IDLE`, with its result in `last_result` and `err`, after
at most the interactions R135 gives it (R110, R116, R135). -/
def Obligations.CommandsEndWithinBounds : Prop :=
  ∀ (s : State) (c : HostCmd), s.phase = .idle →
    ∃ t new r, exec c.instr s = .next t ∧ t.phase = .idle ∧ t.busy = false ∧
      t.lastResult = some r ∧ t.err = r.errOf ∧ t.trace = s.trace ++ new ∧
      (∀ path, c = .openCmd path → new.countP Event.isOpen ≤ 1 ∧ new.countP Event.isTx ≤ 11 ∧
        new.countP Event.isRx ≤ 11 ∧ new.countP Event.isClose ≤ 1 ∧ new.countP Event.isFlush = 0) ∧
      (c = .getMeasurements → new.countP Event.isFlush ≤ s.registry.length ∧
        new.countP Event.isTx ≤ s.registry.length ∧ new.countP Event.isRx ≤ 4 * s.registry.length ∧
        new.countP Event.isOpen = 0 ∧ new.countP Event.isClose = 0) ∧
      (∀ name v, c = .writeValue name v → new.countP Event.isFlush ≤ 1 ∧ new.countP Event.isTx ≤ 1 ∧
        new.countP Event.isRx ≤ 4 ∧ new.countP Event.isOpen = 0 ∧ new.countP Event.isClose = 0) ∧
      (c = .closeCmd → new.countP Event.isClose ≤ 1 ∧ new.length ≤ 1)

/-- What the host commands leave unchanged in every environment: GET_MEASUREMENTS and WRITE_VALUE the link
(R115), the wake loop, the results of internal operations; OPEN the registers of transactions and sweeps; all
of them the configuration and the host's queue. -/
def Obligations.CommandFrames : Prop :=
  ∀ (s t : State) (c : HostCmd), exec c.instr s = .next t →
    sameInputs s t ∧ t.opResult = s.opResult ∧
    (c = .getMeasurements → sameLink s t ∧ sameHandshake s t ∧ t.reqData = s.reqData) ∧
    (∀ name v, c = .writeValue name v → sameLink s t ∧ sameHandshake s t ∧ sameSweep s t) ∧
    (∀ path, c = .openCmd path → sameTransmit s t ∧ sameResponse s t ∧ sameRequest s t ∧ sameSweep s t)

/-! ### Whole-machine rules -/

/-- The numeric error codes of R112, and 0x00 for no error. -/
def Obligations.ErrorCodeTable : Prop :=
  (∀ s : State, s.err = none → s.errCode = 0x00) ∧
  (∀ (s : State) (e : Err), s.err = some e → (e.fail.kind, s.errCode) ∈
    ([(.noHandshakeResponse, 0x10), (.syncRejected, 0x11), (.portOpenFailed, 0x12),
      (.writeIncomplete, 0x20), (.noAck, 0x21), (.nakReceived, 0x22), (.unexpectedAckByte, 0x23),
      (.missingFrameStart, 0x24), (.missingFrameSize, 0x25), (.frameTooShort, 0x26),
      (.checksumMismatch, 0x27), (.invalidReadResponse, 0x30), (.wrongLength, 0x31),
      (.wrongAddress, 0x32), (.wrongMessageType, 0x33), (.wrongAccessType, 0x34), (.wrongSize, 0x35),
      (.payloadTooLarge, 0x40), (.unknownSensor, 0x41), (.notWritable, 0x42), (.valueOutOfRange, 0x43),
      (.invalidSize, 0x44), (.notReady, 0x45), (.sensorReadError, 0x50)] : List (ErrKind × Byte)))

/-- No instruction and no step writes `REGISTRY` (R27). -/
def Obligations.RegistryNeverWritten : Prop :=
  ∀ s t : State, (∀ i, exec i s = .next t → t.registry = s.registry) ∧
    (step s = .next t → t.registry = s.registry)

/-- Every step keeps the invariant: widths (R17, R19, R20, R21, R22), `port_held` and `link_state` (R16), that
`Unestablished` exists only inside OPEN and that the transactions of host commands run only in `Ready` (R15); under
host commands it keeps `err` and `last_result` in agreement (R25, R26; `raise` writes `err` already before OPEN
releases the port, R10); and every step answers a next state. -/
def Obligations.StepKeepsInvariant : Prop :=
  ∀ s : State, s.Inv → ∃ t, step s = .next t ∧ t.Inv ∧ (s.hostStatus → t.hostStatus)

/-- Under host commands the block never offers the transmitter anything but the wake byte, the sync command
and frames of register commands, reads of 1 to 4 bytes or writes of at most 95: every step keeps it (R63,
R65). -/
def Obligations.OnlyLegalMessagesSent : Prop :=
  ∀ s t : State, s.lineLegal → step s = .next t → t.lineLegal

/-- The state after reset meets the invariants, and the configuration it holds is a well-formed registry
(R101, R129; log 12). -/
def Obligations.ResetMeetsInvariants : Prop :=
  State.reset.Inv ∧ State.reset.hostStatus ∧ State.reset.lineLegal ∧ registryWf State.reset.registry = true
end

