-- ==== Sys2Proof/Laws/State.lean ====
section
/-! SUPPORT. One lemma for each field and each named update of the state, so that no later proof unfolds
a record update; and what `raise` leaves alone. -/

namespace Sys2Proof.Machine

/-! ### A draw taken -/

@[simp] theorem State.afterDraw_phase (s : State) : (s.afterDraw).phase = s.phase :=
  by unfold State.afterDraw; split <;> rfl
@[simp] theorem State.afterDraw_link (s : State) : (s.afterDraw).link = s.link :=
  by unfold State.afterDraw; split <;> rfl
@[simp] theorem State.afterDraw_portHeld (s : State) : (s.afterDraw).portHeld = s.portHeld :=
  by unfold State.afterDraw; split <;> rfl
@[simp] theorem State.afterDraw_wakeCount (s : State) : (s.afterDraw).wakeCount = s.wakeCount :=
  by unfold State.afterDraw; split <;> rfl
@[simp] theorem State.afterDraw_wakeLast (s : State) : (s.afterDraw).wakeLast = s.wakeLast :=
  by unfold State.afterDraw; split <;> rfl
@[simp] theorem State.afterDraw_acc (s : State) : (s.afterDraw).acc = s.acc :=
  by unfold State.afterDraw; split <;> rfl
@[simp] theorem State.afterDraw_txbuf (s : State) : (s.afterDraw).txbuf = s.txbuf :=
  by unfold State.afterDraw; split <;> rfl
@[simp] theorem State.afterDraw_ackByte (s : State) : (s.afterDraw).ackByte = s.ackByte :=
  by unfold State.afterDraw; split <;> rfl
@[simp] theorem State.afterDraw_startByte (s : State) : (s.afterDraw).startByte = s.startByte :=
  by unfold State.afterDraw; split <;> rfl
@[simp] theorem State.afterDraw_declaredSize (s : State) : (s.afterDraw).declaredSize = s.declaredSize :=
  by unfold State.afterDraw; split <;> rfl
@[simp] theorem State.afterDraw_rxbuf (s : State) : (s.afterDraw).rxbuf = s.rxbuf :=
  by unfold State.afterDraw; split <;> rfl
@[simp] theorem State.afterDraw_reqKind (s : State) : (s.afterDraw).reqKind = s.reqKind :=
  by unfold State.afterDraw; split <;> rfl
@[simp] theorem State.afterDraw_reqAddr (s : State) : (s.afterDraw).reqAddr = s.reqAddr :=
  by unfold State.afterDraw; split <;> rfl
@[simp] theorem State.afterDraw_reqSize (s : State) : (s.afterDraw).reqSize = s.reqSize :=
  by unfold State.afterDraw; split <;> rfl
@[simp] theorem State.afterDraw_reqData (s : State) : (s.afterDraw).reqData = s.reqData :=
  by unfold State.afterDraw; split <;> rfl
@[simp] theorem State.afterDraw_callData (s : State) : (s.afterDraw).callData = s.callData :=
  by unfold State.afterDraw; split <;> rfl
@[simp] theorem State.afterDraw_sweepIdx (s : State) : (s.afterDraw).sweepIdx = s.sweepIdx :=
  by unfold State.afterDraw; split <;> rfl
@[simp] theorem State.afterDraw_sweepMap (s : State) : (s.afterDraw).sweepMap = s.sweepMap :=
  by unfold State.afterDraw; split <;> rfl
@[simp] theorem State.afterDraw_err (s : State) : (s.afterDraw).err = s.err :=
  by unfold State.afterDraw; split <;> rfl
@[simp] theorem State.afterDraw_lastResult (s : State) : (s.afterDraw).lastResult = s.lastResult :=
  by unfold State.afterDraw; split <;> rfl
@[simp] theorem State.afterDraw_registry (s : State) : (s.afterDraw).registry = s.registry :=
  by unfold State.afterDraw; split <;> rfl
@[simp] theorem State.afterDraw_task (s : State) : (s.afterDraw).task = s.task :=
  by unfold State.afterDraw; split <;> rfl
@[simp] theorem State.afterDraw_rsp (s : State) : (s.afterDraw).rsp = s.rsp :=
  by unfold State.afterDraw; split <;> rfl
@[simp] theorem State.afterDraw_opResult (s : State) : (s.afterDraw).opResult = s.opResult :=
  by unfold State.afterDraw; split <;> rfl
@[simp] theorem State.afterDraw_rxq (s : State) : (s.afterDraw).rxq = s.rxq :=
  by unfold State.afterDraw; split <;> rfl
@[simp] theorem State.afterDraw_trace (s : State) : (s.afterDraw).trace = s.trace :=
  by unfold State.afterDraw; split <;> rfl
@[simp] theorem State.afterDraw_hostq (s : State) : (s.afterDraw).hostq = s.hostq :=
  by unfold State.afterDraw; split <;> rfl
@[simp] theorem State.afterDraw_resetIn (s : State) : (s.afterDraw).resetIn = s.resetIn :=
  by unfold State.afterDraw; split <;> rfl

/-! ### The end of a step -/

@[simp] theorem endStep_phase (s : State) : (endStep s).phase = s.phase := State.afterDraw_phase s
@[simp] theorem endStep_link (s : State) : (endStep s).link = s.link := State.afterDraw_link s
@[simp] theorem endStep_portHeld (s : State) : (endStep s).portHeld = s.portHeld := State.afterDraw_portHeld s
@[simp] theorem endStep_wakeCount (s : State) : (endStep s).wakeCount = s.wakeCount :=
  State.afterDraw_wakeCount s
@[simp] theorem endStep_wakeLast (s : State) : (endStep s).wakeLast = s.wakeLast := State.afterDraw_wakeLast s
@[simp] theorem endStep_acc (s : State) : (endStep s).acc = s.acc := State.afterDraw_acc s
@[simp] theorem endStep_txbuf (s : State) : (endStep s).txbuf = s.txbuf := State.afterDraw_txbuf s
@[simp] theorem endStep_ackByte (s : State) : (endStep s).ackByte = s.ackByte := State.afterDraw_ackByte s
@[simp] theorem endStep_startByte (s : State) : (endStep s).startByte = s.startByte :=
  State.afterDraw_startByte s
@[simp] theorem endStep_declaredSize (s : State) : (endStep s).declaredSize = s.declaredSize :=
  State.afterDraw_declaredSize s
@[simp] theorem endStep_rxbuf (s : State) : (endStep s).rxbuf = s.rxbuf := State.afterDraw_rxbuf s
@[simp] theorem endStep_reqKind (s : State) : (endStep s).reqKind = s.reqKind := State.afterDraw_reqKind s
@[simp] theorem endStep_reqAddr (s : State) : (endStep s).reqAddr = s.reqAddr := State.afterDraw_reqAddr s
@[simp] theorem endStep_reqSize (s : State) : (endStep s).reqSize = s.reqSize := State.afterDraw_reqSize s
@[simp] theorem endStep_reqData (s : State) : (endStep s).reqData = s.reqData := State.afterDraw_reqData s
@[simp] theorem endStep_callData (s : State) : (endStep s).callData = s.callData := State.afterDraw_callData s
@[simp] theorem endStep_sweepIdx (s : State) : (endStep s).sweepIdx = s.sweepIdx := State.afterDraw_sweepIdx s
@[simp] theorem endStep_sweepMap (s : State) : (endStep s).sweepMap = s.sweepMap := State.afterDraw_sweepMap s
@[simp] theorem endStep_err (s : State) : (endStep s).err = s.err := State.afterDraw_err s
@[simp] theorem endStep_lastResult (s : State) : (endStep s).lastResult = s.lastResult :=
  State.afterDraw_lastResult s
@[simp] theorem endStep_registry (s : State) : (endStep s).registry = s.registry := State.afterDraw_registry s
@[simp] theorem endStep_task (s : State) : (endStep s).task = s.task := State.afterDraw_task s
@[simp] theorem endStep_rsp (s : State) : (endStep s).rsp = s.rsp := State.afterDraw_rsp s
@[simp] theorem endStep_opResult (s : State) : (endStep s).opResult = s.opResult := State.afterDraw_opResult s
@[simp] theorem endStep_rxq (s : State) : (endStep s).rxq = s.rxq ++ s.nextDraw.late := rfl
@[simp] theorem endStep_trace (s : State) : (endStep s).trace = s.trace := State.afterDraw_trace s
@[simp] theorem endStep_hostq (s : State) : (endStep s).hostq = s.hostq := State.afterDraw_hostq s
@[simp] theorem endStep_script (s : State) : (endStep s).script = s.afterDraw.script := rfl
@[simp] theorem endStep_draws (s : State) : (endStep s).draws = s.afterDraw.draws := rfl
@[simp] theorem endStep_resetIn (s : State) : (endStep s).resetIn = s.resetIn := State.afterDraw_resetIn s

/-! ### TxWrite -/

@[simp] theorem txWrite_phase (l : List Byte) (s : State) : (txWrite l s).phase = s.phase := rfl
@[simp] theorem txWrite_link (l : List Byte) (s : State) : (txWrite l s).link = s.link := rfl
@[simp] theorem txWrite_portHeld (l : List Byte) (s : State) : (txWrite l s).portHeld = s.portHeld := rfl
@[simp] theorem txWrite_wakeCount (l : List Byte) (s : State) : (txWrite l s).wakeCount = s.wakeCount := rfl
@[simp] theorem txWrite_wakeLast (l : List Byte) (s : State) : (txWrite l s).wakeLast = s.wakeLast := rfl
@[simp] theorem txWrite_acc (l : List Byte) (s : State) : (txWrite l s).acc = s.acc := rfl
@[simp] theorem txWrite_txbuf (l : List Byte) (s : State) : (txWrite l s).txbuf = s.txbuf := rfl
@[simp] theorem txWrite_ackByte (l : List Byte) (s : State) : (txWrite l s).ackByte = s.ackByte := rfl
@[simp] theorem txWrite_startByte (l : List Byte) (s : State) : (txWrite l s).startByte = s.startByte := rfl
@[simp] theorem txWrite_declaredSize (l : List Byte) (s : State) :
    (txWrite l s).declaredSize = s.declaredSize := rfl
@[simp] theorem txWrite_rxbuf (l : List Byte) (s : State) : (txWrite l s).rxbuf = s.rxbuf := rfl
@[simp] theorem txWrite_reqKind (l : List Byte) (s : State) : (txWrite l s).reqKind = s.reqKind := rfl
@[simp] theorem txWrite_reqAddr (l : List Byte) (s : State) : (txWrite l s).reqAddr = s.reqAddr := rfl
@[simp] theorem txWrite_reqSize (l : List Byte) (s : State) : (txWrite l s).reqSize = s.reqSize := rfl
@[simp] theorem txWrite_reqData (l : List Byte) (s : State) : (txWrite l s).reqData = s.reqData := rfl
@[simp] theorem txWrite_callData (l : List Byte) (s : State) : (txWrite l s).callData = s.callData := rfl
@[simp] theorem txWrite_sweepIdx (l : List Byte) (s : State) : (txWrite l s).sweepIdx = s.sweepIdx := rfl
@[simp] theorem txWrite_sweepMap (l : List Byte) (s : State) : (txWrite l s).sweepMap = s.sweepMap := rfl
@[simp] theorem txWrite_err (l : List Byte) (s : State) : (txWrite l s).err = s.err := rfl
@[simp] theorem txWrite_lastResult (l : List Byte) (s : State) : (txWrite l s).lastResult = s.lastResult := rfl
@[simp] theorem txWrite_registry (l : List Byte) (s : State) : (txWrite l s).registry = s.registry := rfl
@[simp] theorem txWrite_task (l : List Byte) (s : State) : (txWrite l s).task = s.task := rfl
@[simp] theorem txWrite_rsp (l : List Byte) (s : State) : (txWrite l s).rsp = s.rsp := rfl
@[simp] theorem txWrite_opResult (l : List Byte) (s : State) : (txWrite l s).opResult = s.opResult := rfl
@[simp] theorem txWrite_rxq (l : List Byte) (s : State) : (txWrite l s).rxq = s.rxq ++ s.nextDraw.arrive := rfl
@[simp] theorem txWrite_trace (l : List Byte) (s : State) :
    (txWrite l s).trace = s.trace ++ [.tx l (s.accepted l)] := rfl
@[simp] theorem txWrite_hostq (l : List Byte) (s : State) : (txWrite l s).hostq = s.hostq := rfl
@[simp] theorem txWrite_script (l : List Byte) (s : State) : (txWrite l s).script = s.script := rfl
@[simp] theorem txWrite_draws (l : List Byte) (s : State) : (txWrite l s).draws = s.draws := rfl
@[simp] theorem txWrite_resetIn (l : List Byte) (s : State) : (txWrite l s).resetIn = s.resetIn := rfl

/-! ### RxRead -/

@[simp] theorem rxRead_phase (n : Nat) (s : State) : (rxRead n s).phase = s.phase := rfl
@[simp] theorem rxRead_link (n : Nat) (s : State) : (rxRead n s).link = s.link := rfl
@[simp] theorem rxRead_portHeld (n : Nat) (s : State) : (rxRead n s).portHeld = s.portHeld := rfl
@[simp] theorem rxRead_wakeCount (n : Nat) (s : State) : (rxRead n s).wakeCount = s.wakeCount := rfl
@[simp] theorem rxRead_wakeLast (n : Nat) (s : State) : (rxRead n s).wakeLast = s.wakeLast := rfl
@[simp] theorem rxRead_acc (n : Nat) (s : State) : (rxRead n s).acc = s.acc := rfl
@[simp] theorem rxRead_txbuf (n : Nat) (s : State) : (rxRead n s).txbuf = s.txbuf := rfl
@[simp] theorem rxRead_ackByte (n : Nat) (s : State) : (rxRead n s).ackByte = s.ackByte := rfl
@[simp] theorem rxRead_startByte (n : Nat) (s : State) : (rxRead n s).startByte = s.startByte := rfl
@[simp] theorem rxRead_declaredSize (n : Nat) (s : State) : (rxRead n s).declaredSize = s.declaredSize := rfl
@[simp] theorem rxRead_rxbuf (n : Nat) (s : State) : (rxRead n s).rxbuf = s.rxbuf := rfl
@[simp] theorem rxRead_reqKind (n : Nat) (s : State) : (rxRead n s).reqKind = s.reqKind := rfl
@[simp] theorem rxRead_reqAddr (n : Nat) (s : State) : (rxRead n s).reqAddr = s.reqAddr := rfl
@[simp] theorem rxRead_reqSize (n : Nat) (s : State) : (rxRead n s).reqSize = s.reqSize := rfl
@[simp] theorem rxRead_reqData (n : Nat) (s : State) : (rxRead n s).reqData = s.reqData := rfl
@[simp] theorem rxRead_callData (n : Nat) (s : State) : (rxRead n s).callData = s.callData := rfl
@[simp] theorem rxRead_sweepIdx (n : Nat) (s : State) : (rxRead n s).sweepIdx = s.sweepIdx := rfl
@[simp] theorem rxRead_sweepMap (n : Nat) (s : State) : (rxRead n s).sweepMap = s.sweepMap := rfl
@[simp] theorem rxRead_err (n : Nat) (s : State) : (rxRead n s).err = s.err := rfl
@[simp] theorem rxRead_lastResult (n : Nat) (s : State) : (rxRead n s).lastResult = s.lastResult := rfl
@[simp] theorem rxRead_registry (n : Nat) (s : State) : (rxRead n s).registry = s.registry := rfl
@[simp] theorem rxRead_task (n : Nat) (s : State) : (rxRead n s).task = s.task := rfl
@[simp] theorem rxRead_rsp (n : Nat) (s : State) : (rxRead n s).rsp = s.rsp := rfl
@[simp] theorem rxRead_opResult (n : Nat) (s : State) : (rxRead n s).opResult = s.opResult := rfl
@[simp] theorem rxRead_rxq (n : Nat) (s : State) : (rxRead n s).rxq = (s.rxq ++ s.nextDraw.arrive).drop n := rfl
@[simp] theorem rxRead_trace (n : Nat) (s : State) : (rxRead n s).trace = s.trace ++ [.rx n (s.readBytes n)] :=
  rfl
@[simp] theorem rxRead_hostq (n : Nat) (s : State) : (rxRead n s).hostq = s.hostq := rfl
@[simp] theorem rxRead_script (n : Nat) (s : State) : (rxRead n s).script = s.script := rfl
@[simp] theorem rxRead_draws (n : Nat) (s : State) : (rxRead n s).draws = s.draws := rfl
@[simp] theorem rxRead_resetIn (n : Nat) (s : State) : (rxRead n s).resetIn = s.resetIn := rfl

/-! ### RxFlush -/

@[simp] theorem rxFlush_phase (s : State) : (rxFlush s).phase = s.phase := rfl
@[simp] theorem rxFlush_link (s : State) : (rxFlush s).link = s.link := rfl
@[simp] theorem rxFlush_portHeld (s : State) : (rxFlush s).portHeld = s.portHeld := rfl
@[simp] theorem rxFlush_wakeCount (s : State) : (rxFlush s).wakeCount = s.wakeCount := rfl
@[simp] theorem rxFlush_wakeLast (s : State) : (rxFlush s).wakeLast = s.wakeLast := rfl
@[simp] theorem rxFlush_acc (s : State) : (rxFlush s).acc = s.acc := rfl
@[simp] theorem rxFlush_txbuf (s : State) : (rxFlush s).txbuf = s.txbuf := rfl
@[simp] theorem rxFlush_ackByte (s : State) : (rxFlush s).ackByte = s.ackByte := rfl
@[simp] theorem rxFlush_startByte (s : State) : (rxFlush s).startByte = s.startByte := rfl
@[simp] theorem rxFlush_declaredSize (s : State) : (rxFlush s).declaredSize = s.declaredSize := rfl
@[simp] theorem rxFlush_rxbuf (s : State) : (rxFlush s).rxbuf = s.rxbuf := rfl
@[simp] theorem rxFlush_reqKind (s : State) : (rxFlush s).reqKind = s.reqKind := rfl
@[simp] theorem rxFlush_reqAddr (s : State) : (rxFlush s).reqAddr = s.reqAddr := rfl
@[simp] theorem rxFlush_reqSize (s : State) : (rxFlush s).reqSize = s.reqSize := rfl
@[simp] theorem rxFlush_reqData (s : State) : (rxFlush s).reqData = s.reqData := rfl
@[simp] theorem rxFlush_callData (s : State) : (rxFlush s).callData = s.callData := rfl
@[simp] theorem rxFlush_sweepIdx (s : State) : (rxFlush s).sweepIdx = s.sweepIdx := rfl
@[simp] theorem rxFlush_sweepMap (s : State) : (rxFlush s).sweepMap = s.sweepMap := rfl
@[simp] theorem rxFlush_err (s : State) : (rxFlush s).err = s.err := rfl
@[simp] theorem rxFlush_lastResult (s : State) : (rxFlush s).lastResult = s.lastResult := rfl
@[simp] theorem rxFlush_registry (s : State) : (rxFlush s).registry = s.registry := rfl
@[simp] theorem rxFlush_task (s : State) : (rxFlush s).task = s.task := rfl
@[simp] theorem rxFlush_rsp (s : State) : (rxFlush s).rsp = s.rsp := rfl
@[simp] theorem rxFlush_opResult (s : State) : (rxFlush s).opResult = s.opResult := rfl
@[simp] theorem rxFlush_rxq (s : State) : (rxFlush s).rxq = [] := rfl
@[simp] theorem rxFlush_trace (s : State) : (rxFlush s).trace = s.trace ++ [.flush] := rfl
@[simp] theorem rxFlush_hostq (s : State) : (rxFlush s).hostq = s.hostq := rfl
@[simp] theorem rxFlush_script (s : State) : (rxFlush s).script = s.script := rfl
@[simp] theorem rxFlush_draws (s : State) : (rxFlush s).draws = s.draws := rfl
@[simp] theorem rxFlush_resetIn (s : State) : (rxFlush s).resetIn = s.resetIn := rfl

/-! ### PortOpen and PortClose -/

@[simp] theorem portRefuse_phase (path : String) (s : State) : (portRefuse path s).phase = s.phase := rfl
@[simp] theorem portRefuse_link (path : String) (s : State) : (portRefuse path s).link = s.link := rfl
@[simp] theorem portRefuse_portHeld (path : String) (s : State) : (portRefuse path s).portHeld = s.portHeld :=
  rfl
@[simp] theorem portRefuse_wakeCount (path : String) (s : State) :
    (portRefuse path s).wakeCount = s.wakeCount := rfl
@[simp] theorem portRefuse_wakeLast (path : String) (s : State) : (portRefuse path s).wakeLast = s.wakeLast :=
  rfl
@[simp] theorem portRefuse_acc (path : String) (s : State) : (portRefuse path s).acc = s.acc := rfl
@[simp] theorem portRefuse_txbuf (path : String) (s : State) : (portRefuse path s).txbuf = s.txbuf := rfl
@[simp] theorem portRefuse_ackByte (path : String) (s : State) : (portRefuse path s).ackByte = s.ackByte := rfl
@[simp] theorem portRefuse_startByte (path : String) (s : State) :
    (portRefuse path s).startByte = s.startByte := rfl
@[simp] theorem portRefuse_declaredSize (path : String) (s : State) :
    (portRefuse path s).declaredSize = s.declaredSize := rfl
@[simp] theorem portRefuse_rxbuf (path : String) (s : State) : (portRefuse path s).rxbuf = s.rxbuf := rfl
@[simp] theorem portRefuse_reqKind (path : String) (s : State) : (portRefuse path s).reqKind = s.reqKind := rfl
@[simp] theorem portRefuse_reqAddr (path : String) (s : State) : (portRefuse path s).reqAddr = s.reqAddr := rfl
@[simp] theorem portRefuse_reqSize (path : String) (s : State) : (portRefuse path s).reqSize = s.reqSize := rfl
@[simp] theorem portRefuse_reqData (path : String) (s : State) : (portRefuse path s).reqData = s.reqData := rfl
@[simp] theorem portRefuse_callData (path : String) (s : State) : (portRefuse path s).callData = s.callData :=
  rfl
@[simp] theorem portRefuse_sweepIdx (path : String) (s : State) : (portRefuse path s).sweepIdx = s.sweepIdx :=
  rfl
@[simp] theorem portRefuse_sweepMap (path : String) (s : State) : (portRefuse path s).sweepMap = s.sweepMap :=
  rfl
@[simp] theorem portRefuse_err (path : String) (s : State) : (portRefuse path s).err = s.err := rfl
@[simp] theorem portRefuse_lastResult (path : String) (s : State) :
    (portRefuse path s).lastResult = s.lastResult := rfl
@[simp] theorem portRefuse_registry (path : String) (s : State) : (portRefuse path s).registry = s.registry :=
  rfl
@[simp] theorem portRefuse_task (path : String) (s : State) : (portRefuse path s).task = s.task := rfl
@[simp] theorem portRefuse_rsp (path : String) (s : State) : (portRefuse path s).rsp = s.rsp := rfl
@[simp] theorem portRefuse_opResult (path : String) (s : State) : (portRefuse path s).opResult = s.opResult :=
  rfl
@[simp] theorem portRefuse_rxq (path : String) (s : State) : (portRefuse path s).rxq = s.rxq := rfl
@[simp] theorem portRefuse_trace (path : String) (s : State) :
    (portRefuse path s).trace = s.trace ++ [.portOpen path false] := rfl
@[simp] theorem portRefuse_hostq (path : String) (s : State) : (portRefuse path s).hostq = s.hostq := rfl
@[simp] theorem portRefuse_script (path : String) (s : State) : (portRefuse path s).script = s.script := rfl
@[simp] theorem portRefuse_draws (path : String) (s : State) : (portRefuse path s).draws = s.draws := rfl
@[simp] theorem portRefuse_resetIn (path : String) (s : State) : (portRefuse path s).resetIn = s.resetIn := rfl

@[simp] theorem portGrant_phase (path : String) (s : State) : (portGrant path s).phase = s.phase := rfl
@[simp] theorem portGrant_link (path : String) (s : State) : (portGrant path s).link = .unestablished := rfl
@[simp] theorem portGrant_portHeld (path : String) (s : State) : (portGrant path s).portHeld = true := rfl
@[simp] theorem portGrant_wakeCount (path : String) (s : State) : (portGrant path s).wakeCount = s.wakeCount :=
  rfl
@[simp] theorem portGrant_wakeLast (path : String) (s : State) : (portGrant path s).wakeLast = s.wakeLast := rfl
@[simp] theorem portGrant_acc (path : String) (s : State) : (portGrant path s).acc = s.acc := rfl
@[simp] theorem portGrant_txbuf (path : String) (s : State) : (portGrant path s).txbuf = s.txbuf := rfl
@[simp] theorem portGrant_ackByte (path : String) (s : State) : (portGrant path s).ackByte = s.ackByte := rfl
@[simp] theorem portGrant_startByte (path : String) (s : State) : (portGrant path s).startByte = s.startByte :=
  rfl
@[simp] theorem portGrant_declaredSize (path : String) (s : State) :
    (portGrant path s).declaredSize = s.declaredSize := rfl
@[simp] theorem portGrant_rxbuf (path : String) (s : State) : (portGrant path s).rxbuf = s.rxbuf := rfl
@[simp] theorem portGrant_reqKind (path : String) (s : State) : (portGrant path s).reqKind = s.reqKind := rfl
@[simp] theorem portGrant_reqAddr (path : String) (s : State) : (portGrant path s).reqAddr = s.reqAddr := rfl
@[simp] theorem portGrant_reqSize (path : String) (s : State) : (portGrant path s).reqSize = s.reqSize := rfl
@[simp] theorem portGrant_reqData (path : String) (s : State) : (portGrant path s).reqData = s.reqData := rfl
@[simp] theorem portGrant_callData (path : String) (s : State) : (portGrant path s).callData = s.callData := rfl
@[simp] theorem portGrant_sweepIdx (path : String) (s : State) : (portGrant path s).sweepIdx = s.sweepIdx := rfl
@[simp] theorem portGrant_sweepMap (path : String) (s : State) : (portGrant path s).sweepMap = s.sweepMap := rfl
@[simp] theorem portGrant_err (path : String) (s : State) : (portGrant path s).err = s.err := rfl
@[simp] theorem portGrant_lastResult (path : String) (s : State) :
    (portGrant path s).lastResult = s.lastResult := rfl
@[simp] theorem portGrant_registry (path : String) (s : State) : (portGrant path s).registry = s.registry := rfl
@[simp] theorem portGrant_task (path : String) (s : State) : (portGrant path s).task = s.task := rfl
@[simp] theorem portGrant_rsp (path : String) (s : State) : (portGrant path s).rsp = s.rsp := rfl
@[simp] theorem portGrant_opResult (path : String) (s : State) : (portGrant path s).opResult = s.opResult := rfl
@[simp] theorem portGrant_rxq (path : String) (s : State) : (portGrant path s).rxq = [] := rfl
@[simp] theorem portGrant_trace (path : String) (s : State) :
    (portGrant path s).trace = s.trace ++ [.portOpen path true] := rfl
@[simp] theorem portGrant_hostq (path : String) (s : State) : (portGrant path s).hostq = s.hostq := rfl
@[simp] theorem portGrant_script (path : String) (s : State) : (portGrant path s).script = s.script := rfl
@[simp] theorem portGrant_draws (path : String) (s : State) : (portGrant path s).draws = s.draws := rfl
@[simp] theorem portGrant_resetIn (path : String) (s : State) : (portGrant path s).resetIn = s.resetIn := rfl

@[simp] theorem portClose_phase (s : State) : (portClose s).phase = s.phase := rfl
@[simp] theorem portClose_link (s : State) : (portClose s).link = .closed := rfl
@[simp] theorem portClose_portHeld (s : State) : (portClose s).portHeld = false := rfl
@[simp] theorem portClose_wakeCount (s : State) : (portClose s).wakeCount = s.wakeCount := rfl
@[simp] theorem portClose_wakeLast (s : State) : (portClose s).wakeLast = s.wakeLast := rfl
@[simp] theorem portClose_acc (s : State) : (portClose s).acc = s.acc := rfl
@[simp] theorem portClose_txbuf (s : State) : (portClose s).txbuf = s.txbuf := rfl
@[simp] theorem portClose_ackByte (s : State) : (portClose s).ackByte = s.ackByte := rfl
@[simp] theorem portClose_startByte (s : State) : (portClose s).startByte = s.startByte := rfl
@[simp] theorem portClose_declaredSize (s : State) : (portClose s).declaredSize = s.declaredSize := rfl
@[simp] theorem portClose_rxbuf (s : State) : (portClose s).rxbuf = s.rxbuf := rfl
@[simp] theorem portClose_reqKind (s : State) : (portClose s).reqKind = s.reqKind := rfl
@[simp] theorem portClose_reqAddr (s : State) : (portClose s).reqAddr = s.reqAddr := rfl
@[simp] theorem portClose_reqSize (s : State) : (portClose s).reqSize = s.reqSize := rfl
@[simp] theorem portClose_reqData (s : State) : (portClose s).reqData = s.reqData := rfl
@[simp] theorem portClose_callData (s : State) : (portClose s).callData = s.callData := rfl
@[simp] theorem portClose_sweepIdx (s : State) : (portClose s).sweepIdx = s.sweepIdx := rfl
@[simp] theorem portClose_sweepMap (s : State) : (portClose s).sweepMap = s.sweepMap := rfl
@[simp] theorem portClose_err (s : State) : (portClose s).err = s.err := rfl
@[simp] theorem portClose_lastResult (s : State) : (portClose s).lastResult = s.lastResult := rfl
@[simp] theorem portClose_registry (s : State) : (portClose s).registry = s.registry := rfl
@[simp] theorem portClose_task (s : State) : (portClose s).task = s.task := rfl
@[simp] theorem portClose_rsp (s : State) : (portClose s).rsp = s.rsp := rfl
@[simp] theorem portClose_opResult (s : State) : (portClose s).opResult = s.opResult := rfl
@[simp] theorem portClose_rxq (s : State) : (portClose s).rxq = [] := rfl
@[simp] theorem portClose_trace (s : State) : (portClose s).trace = s.trace ++ [.portClose] := rfl
@[simp] theorem portClose_hostq (s : State) : (portClose s).hostq = s.hostq := rfl
@[simp] theorem portClose_script (s : State) : (portClose s).script = s.script := rfl
@[simp] theorem portClose_draws (s : State) : (portClose s).draws = s.draws := rfl
@[simp] theorem portClose_resetIn (s : State) : (portClose s).resetIn = s.resetIn := rfl

/-! ### Results -/

@[simp] theorem finishCmd_phase (r : Result) (s : State) : (finishCmd r s).phase = .idle := rfl
@[simp] theorem finishCmd_link (r : Result) (s : State) : (finishCmd r s).link = s.link := rfl
@[simp] theorem finishCmd_portHeld (r : Result) (s : State) : (finishCmd r s).portHeld = s.portHeld := rfl
@[simp] theorem finishCmd_wakeCount (r : Result) (s : State) : (finishCmd r s).wakeCount = s.wakeCount := rfl
@[simp] theorem finishCmd_wakeLast (r : Result) (s : State) : (finishCmd r s).wakeLast = s.wakeLast := rfl
@[simp] theorem finishCmd_acc (r : Result) (s : State) : (finishCmd r s).acc = s.acc := rfl
@[simp] theorem finishCmd_txbuf (r : Result) (s : State) : (finishCmd r s).txbuf = s.txbuf := rfl
@[simp] theorem finishCmd_ackByte (r : Result) (s : State) : (finishCmd r s).ackByte = s.ackByte := rfl
@[simp] theorem finishCmd_startByte (r : Result) (s : State) : (finishCmd r s).startByte = s.startByte := rfl
@[simp] theorem finishCmd_declaredSize (r : Result) (s : State) :
    (finishCmd r s).declaredSize = s.declaredSize := rfl
@[simp] theorem finishCmd_rxbuf (r : Result) (s : State) : (finishCmd r s).rxbuf = s.rxbuf := rfl
@[simp] theorem finishCmd_reqKind (r : Result) (s : State) : (finishCmd r s).reqKind = s.reqKind := rfl
@[simp] theorem finishCmd_reqAddr (r : Result) (s : State) : (finishCmd r s).reqAddr = s.reqAddr := rfl
@[simp] theorem finishCmd_reqSize (r : Result) (s : State) : (finishCmd r s).reqSize = s.reqSize := rfl
@[simp] theorem finishCmd_reqData (r : Result) (s : State) : (finishCmd r s).reqData = s.reqData := rfl
@[simp] theorem finishCmd_callData (r : Result) (s : State) : (finishCmd r s).callData = s.callData := rfl
@[simp] theorem finishCmd_sweepIdx (r : Result) (s : State) : (finishCmd r s).sweepIdx = s.sweepIdx := rfl
@[simp] theorem finishCmd_sweepMap (r : Result) (s : State) : (finishCmd r s).sweepMap = s.sweepMap := rfl
@[simp] theorem finishCmd_err (r : Result) (s : State) : (finishCmd r s).err = r.errOf := rfl
@[simp] theorem finishCmd_lastResult (r : Result) (s : State) : (finishCmd r s).lastResult = some r := rfl
@[simp] theorem finishCmd_registry (r : Result) (s : State) : (finishCmd r s).registry = s.registry := rfl
@[simp] theorem finishCmd_task (r : Result) (s : State) : (finishCmd r s).task = .idle := rfl
@[simp] theorem finishCmd_rsp (r : Result) (s : State) : (finishCmd r s).rsp = none := rfl
@[simp] theorem finishCmd_opResult (r : Result) (s : State) : (finishCmd r s).opResult = s.opResult := rfl
@[simp] theorem finishCmd_rxq (r : Result) (s : State) : (finishCmd r s).rxq = s.rxq := rfl
@[simp] theorem finishCmd_trace (r : Result) (s : State) : (finishCmd r s).trace = s.trace := rfl
@[simp] theorem finishCmd_hostq (r : Result) (s : State) : (finishCmd r s).hostq = s.hostq := rfl
@[simp] theorem finishCmd_script (r : Result) (s : State) : (finishCmd r s).script = s.script := rfl
@[simp] theorem finishCmd_draws (r : Result) (s : State) : (finishCmd r s).draws = s.draws := rfl
@[simp] theorem finishCmd_resetIn (r : Result) (s : State) : (finishCmd r s).resetIn = s.resetIn := rfl

@[simp] theorem writeErr_phase (e : Fail) (s : State) : (writeErr e s).phase = s.phase := rfl
@[simp] theorem writeErr_link (e : Fail) (s : State) : (writeErr e s).link = s.link := rfl
@[simp] theorem writeErr_portHeld (e : Fail) (s : State) : (writeErr e s).portHeld = s.portHeld := rfl
@[simp] theorem writeErr_wakeCount (e : Fail) (s : State) : (writeErr e s).wakeCount = s.wakeCount := rfl
@[simp] theorem writeErr_wakeLast (e : Fail) (s : State) : (writeErr e s).wakeLast = s.wakeLast := rfl
@[simp] theorem writeErr_acc (e : Fail) (s : State) : (writeErr e s).acc = s.acc := rfl
@[simp] theorem writeErr_txbuf (e : Fail) (s : State) : (writeErr e s).txbuf = s.txbuf := rfl
@[simp] theorem writeErr_ackByte (e : Fail) (s : State) : (writeErr e s).ackByte = s.ackByte := rfl
@[simp] theorem writeErr_startByte (e : Fail) (s : State) : (writeErr e s).startByte = s.startByte := rfl
@[simp] theorem writeErr_declaredSize (e : Fail) (s : State) : (writeErr e s).declaredSize = s.declaredSize :=
  rfl
@[simp] theorem writeErr_rxbuf (e : Fail) (s : State) : (writeErr e s).rxbuf = s.rxbuf := rfl
@[simp] theorem writeErr_reqKind (e : Fail) (s : State) : (writeErr e s).reqKind = s.reqKind := rfl
@[simp] theorem writeErr_reqAddr (e : Fail) (s : State) : (writeErr e s).reqAddr = s.reqAddr := rfl
@[simp] theorem writeErr_reqSize (e : Fail) (s : State) : (writeErr e s).reqSize = s.reqSize := rfl
@[simp] theorem writeErr_reqData (e : Fail) (s : State) : (writeErr e s).reqData = s.reqData := rfl
@[simp] theorem writeErr_callData (e : Fail) (s : State) : (writeErr e s).callData = s.callData := rfl
@[simp] theorem writeErr_sweepIdx (e : Fail) (s : State) : (writeErr e s).sweepIdx = s.sweepIdx := rfl
@[simp] theorem writeErr_sweepMap (e : Fail) (s : State) : (writeErr e s).sweepMap = s.sweepMap := rfl
@[simp] theorem writeErr_err (e : Fail) (s : State) : (writeErr e s).err = some { fail := e } := rfl
@[simp] theorem writeErr_lastResult (e : Fail) (s : State) : (writeErr e s).lastResult = s.lastResult := rfl
@[simp] theorem writeErr_registry (e : Fail) (s : State) : (writeErr e s).registry = s.registry := rfl
@[simp] theorem writeErr_task (e : Fail) (s : State) : (writeErr e s).task = s.task := rfl
@[simp] theorem writeErr_rsp (e : Fail) (s : State) : (writeErr e s).rsp = s.rsp := rfl
@[simp] theorem writeErr_opResult (e : Fail) (s : State) : (writeErr e s).opResult = s.opResult := rfl
@[simp] theorem writeErr_rxq (e : Fail) (s : State) : (writeErr e s).rxq = s.rxq := rfl
@[simp] theorem writeErr_trace (e : Fail) (s : State) : (writeErr e s).trace = s.trace := rfl
@[simp] theorem writeErr_hostq (e : Fail) (s : State) : (writeErr e s).hostq = s.hostq := rfl
@[simp] theorem writeErr_script (e : Fail) (s : State) : (writeErr e s).script = s.script := rfl
@[simp] theorem writeErr_draws (e : Fail) (s : State) : (writeErr e s).draws = s.draws := rfl
@[simp] theorem writeErr_resetIn (e : Fail) (s : State) : (writeErr e s).resetIn = s.resetIn := rfl

@[simp] theorem setResult_phase (r : Result) (s : State) : (setResult r s).phase = s.phase := rfl
@[simp] theorem setResult_link (r : Result) (s : State) : (setResult r s).link = s.link := rfl
@[simp] theorem setResult_portHeld (r : Result) (s : State) : (setResult r s).portHeld = s.portHeld := rfl
@[simp] theorem setResult_wakeCount (r : Result) (s : State) : (setResult r s).wakeCount = s.wakeCount := rfl
@[simp] theorem setResult_wakeLast (r : Result) (s : State) : (setResult r s).wakeLast = s.wakeLast := rfl
@[simp] theorem setResult_acc (r : Result) (s : State) : (setResult r s).acc = s.acc := rfl
@[simp] theorem setResult_txbuf (r : Result) (s : State) : (setResult r s).txbuf = s.txbuf := rfl
@[simp] theorem setResult_ackByte (r : Result) (s : State) : (setResult r s).ackByte = s.ackByte := rfl
@[simp] theorem setResult_startByte (r : Result) (s : State) : (setResult r s).startByte = s.startByte := rfl
@[simp] theorem setResult_declaredSize (r : Result) (s : State) :
    (setResult r s).declaredSize = s.declaredSize := rfl
@[simp] theorem setResult_rxbuf (r : Result) (s : State) : (setResult r s).rxbuf = s.rxbuf := rfl
@[simp] theorem setResult_reqKind (r : Result) (s : State) : (setResult r s).reqKind = s.reqKind := rfl
@[simp] theorem setResult_reqAddr (r : Result) (s : State) : (setResult r s).reqAddr = s.reqAddr := rfl
@[simp] theorem setResult_reqSize (r : Result) (s : State) : (setResult r s).reqSize = s.reqSize := rfl
@[simp] theorem setResult_reqData (r : Result) (s : State) : (setResult r s).reqData = s.reqData := rfl
@[simp] theorem setResult_callData (r : Result) (s : State) : (setResult r s).callData = s.callData := rfl
@[simp] theorem setResult_sweepIdx (r : Result) (s : State) : (setResult r s).sweepIdx = s.sweepIdx := rfl
@[simp] theorem setResult_sweepMap (r : Result) (s : State) : (setResult r s).sweepMap = s.sweepMap := rfl
@[simp] theorem setResult_err (r : Result) (s : State) : (setResult r s).err = s.err := rfl
@[simp] theorem setResult_lastResult (r : Result) (s : State) : (setResult r s).lastResult = s.lastResult := rfl
@[simp] theorem setResult_registry (r : Result) (s : State) : (setResult r s).registry = s.registry := rfl
@[simp] theorem setResult_task (r : Result) (s : State) : (setResult r s).task = s.task := rfl
@[simp] theorem setResult_rsp (r : Result) (s : State) : (setResult r s).rsp = s.rsp := rfl
@[simp] theorem setResult_opResult (r : Result) (s : State) : (setResult r s).opResult = some r := rfl
@[simp] theorem setResult_rxq (r : Result) (s : State) : (setResult r s).rxq = s.rxq := rfl
@[simp] theorem setResult_trace (r : Result) (s : State) : (setResult r s).trace = s.trace := rfl
@[simp] theorem setResult_hostq (r : Result) (s : State) : (setResult r s).hostq = s.hostq := rfl
@[simp] theorem setResult_script (r : Result) (s : State) : (setResult r s).script = s.script := rfl
@[simp] theorem setResult_draws (r : Result) (s : State) : (setResult r s).draws = s.draws := rfl
@[simp] theorem setResult_resetIn (r : Result) (s : State) : (setResult r s).resetIn = s.resetIn := rfl

@[simp] theorem finishOp_phase (r : Result) (s : State) : (finishOp r s).phase = s.phase := rfl
@[simp] theorem finishOp_link (r : Result) (s : State) : (finishOp r s).link = s.link := rfl
@[simp] theorem finishOp_portHeld (r : Result) (s : State) : (finishOp r s).portHeld = s.portHeld := rfl
@[simp] theorem finishOp_wakeCount (r : Result) (s : State) : (finishOp r s).wakeCount = s.wakeCount := rfl
@[simp] theorem finishOp_wakeLast (r : Result) (s : State) : (finishOp r s).wakeLast = s.wakeLast := rfl
@[simp] theorem finishOp_acc (r : Result) (s : State) : (finishOp r s).acc = s.acc := rfl
@[simp] theorem finishOp_txbuf (r : Result) (s : State) : (finishOp r s).txbuf = s.txbuf := rfl
@[simp] theorem finishOp_ackByte (r : Result) (s : State) : (finishOp r s).ackByte = s.ackByte := rfl
@[simp] theorem finishOp_startByte (r : Result) (s : State) : (finishOp r s).startByte = s.startByte := rfl
@[simp] theorem finishOp_declaredSize (r : Result) (s : State) : (finishOp r s).declaredSize = s.declaredSize :=
  rfl
@[simp] theorem finishOp_rxbuf (r : Result) (s : State) : (finishOp r s).rxbuf = s.rxbuf := rfl
@[simp] theorem finishOp_reqKind (r : Result) (s : State) : (finishOp r s).reqKind = s.reqKind := rfl
@[simp] theorem finishOp_reqAddr (r : Result) (s : State) : (finishOp r s).reqAddr = s.reqAddr := rfl
@[simp] theorem finishOp_reqSize (r : Result) (s : State) : (finishOp r s).reqSize = s.reqSize := rfl
@[simp] theorem finishOp_reqData (r : Result) (s : State) : (finishOp r s).reqData = s.reqData := rfl
@[simp] theorem finishOp_callData (r : Result) (s : State) : (finishOp r s).callData = s.callData := rfl
@[simp] theorem finishOp_sweepIdx (r : Result) (s : State) : (finishOp r s).sweepIdx = s.sweepIdx := rfl
@[simp] theorem finishOp_sweepMap (r : Result) (s : State) : (finishOp r s).sweepMap = s.sweepMap := rfl
@[simp] theorem finishOp_err (r : Result) (s : State) : (finishOp r s).err = s.err := rfl
@[simp] theorem finishOp_lastResult (r : Result) (s : State) : (finishOp r s).lastResult = s.lastResult := rfl
@[simp] theorem finishOp_registry (r : Result) (s : State) : (finishOp r s).registry = s.registry := rfl
@[simp] theorem finishOp_task (r : Result) (s : State) : (finishOp r s).task = .idle := rfl
@[simp] theorem finishOp_rsp (r : Result) (s : State) : (finishOp r s).rsp = s.rsp := rfl
@[simp] theorem finishOp_opResult (r : Result) (s : State) : (finishOp r s).opResult = some r := rfl
@[simp] theorem finishOp_rxq (r : Result) (s : State) : (finishOp r s).rxq = s.rxq := rfl
@[simp] theorem finishOp_trace (r : Result) (s : State) : (finishOp r s).trace = s.trace := rfl
@[simp] theorem finishOp_hostq (r : Result) (s : State) : (finishOp r s).hostq = s.hostq := rfl
@[simp] theorem finishOp_script (r : Result) (s : State) : (finishOp r s).script = s.script := rfl
@[simp] theorem finishOp_draws (r : Result) (s : State) : (finishOp r s).draws = s.draws := rfl
@[simp] theorem finishOp_resetIn (r : Result) (s : State) : (finishOp r s).resetIn = s.resetIn := rfl

@[simp] theorem failOp_phase (e : Fail) (s : State) : (failOp e s).phase = s.phase := rfl
@[simp] theorem failOp_link (e : Fail) (s : State) : (failOp e s).link = s.link := rfl
@[simp] theorem failOp_portHeld (e : Fail) (s : State) : (failOp e s).portHeld = s.portHeld := rfl
@[simp] theorem failOp_wakeCount (e : Fail) (s : State) : (failOp e s).wakeCount = s.wakeCount := rfl
@[simp] theorem failOp_wakeLast (e : Fail) (s : State) : (failOp e s).wakeLast = s.wakeLast := rfl
@[simp] theorem failOp_acc (e : Fail) (s : State) : (failOp e s).acc = s.acc := rfl
@[simp] theorem failOp_txbuf (e : Fail) (s : State) : (failOp e s).txbuf = s.txbuf := rfl
@[simp] theorem failOp_ackByte (e : Fail) (s : State) : (failOp e s).ackByte = s.ackByte := rfl
@[simp] theorem failOp_startByte (e : Fail) (s : State) : (failOp e s).startByte = s.startByte := rfl
@[simp] theorem failOp_declaredSize (e : Fail) (s : State) : (failOp e s).declaredSize = s.declaredSize := rfl
@[simp] theorem failOp_rxbuf (e : Fail) (s : State) : (failOp e s).rxbuf = s.rxbuf := rfl
@[simp] theorem failOp_reqKind (e : Fail) (s : State) : (failOp e s).reqKind = s.reqKind := rfl
@[simp] theorem failOp_reqAddr (e : Fail) (s : State) : (failOp e s).reqAddr = s.reqAddr := rfl
@[simp] theorem failOp_reqSize (e : Fail) (s : State) : (failOp e s).reqSize = s.reqSize := rfl
@[simp] theorem failOp_reqData (e : Fail) (s : State) : (failOp e s).reqData = s.reqData := rfl
@[simp] theorem failOp_callData (e : Fail) (s : State) : (failOp e s).callData = s.callData := rfl
@[simp] theorem failOp_sweepIdx (e : Fail) (s : State) : (failOp e s).sweepIdx = s.sweepIdx := rfl
@[simp] theorem failOp_sweepMap (e : Fail) (s : State) : (failOp e s).sweepMap = s.sweepMap := rfl
@[simp] theorem failOp_err (e : Fail) (s : State) : (failOp e s).err = some { fail := e } := rfl
@[simp] theorem failOp_lastResult (e : Fail) (s : State) : (failOp e s).lastResult = s.lastResult := rfl
@[simp] theorem failOp_registry (e : Fail) (s : State) : (failOp e s).registry = s.registry := rfl
@[simp] theorem failOp_task (e : Fail) (s : State) : (failOp e s).task = s.task := rfl
@[simp] theorem failOp_rsp (e : Fail) (s : State) : (failOp e s).rsp = s.rsp := rfl
@[simp] theorem failOp_opResult (e : Fail) (s : State) : (failOp e s).opResult = some (.err { fail := e }) :=
  rfl
@[simp] theorem failOp_rxq (e : Fail) (s : State) : (failOp e s).rxq = s.rxq := rfl
@[simp] theorem failOp_trace (e : Fail) (s : State) : (failOp e s).trace = s.trace := rfl
@[simp] theorem failOp_hostq (e : Fail) (s : State) : (failOp e s).hostq = s.hostq := rfl
@[simp] theorem failOp_script (e : Fail) (s : State) : (failOp e s).script = s.script := rfl
@[simp] theorem failOp_draws (e : Fail) (s : State) : (failOp e s).draws = s.draws := rfl
@[simp] theorem failOp_resetIn (e : Fail) (s : State) : (failOp e s).resetIn = s.resetIn := rfl

/-! ### What raising an error leaves alone -/

@[simp] theorem raise_link (e : Fail) (s : State) : (raise e s).link = s.link := by unfold raise; split <;> rfl
@[simp] theorem raise_portHeld (e : Fail) (s : State) : (raise e s).portHeld = s.portHeld :=
  by unfold raise; split <;> rfl
@[simp] theorem raise_wakeCount (e : Fail) (s : State) : (raise e s).wakeCount = s.wakeCount :=
  by unfold raise; split <;> rfl
@[simp] theorem raise_wakeLast (e : Fail) (s : State) : (raise e s).wakeLast = s.wakeLast :=
  by unfold raise; split <;> rfl
@[simp] theorem raise_acc (e : Fail) (s : State) : (raise e s).acc = s.acc := by unfold raise; split <;> rfl
@[simp] theorem raise_txbuf (e : Fail) (s : State) : (raise e s).txbuf = s.txbuf :=
  by unfold raise; split <;> rfl
@[simp] theorem raise_ackByte (e : Fail) (s : State) : (raise e s).ackByte = s.ackByte :=
  by unfold raise; split <;> rfl
@[simp] theorem raise_startByte (e : Fail) (s : State) : (raise e s).startByte = s.startByte :=
  by unfold raise; split <;> rfl
@[simp] theorem raise_declaredSize (e : Fail) (s : State) : (raise e s).declaredSize = s.declaredSize :=
  by unfold raise; split <;> rfl
@[simp] theorem raise_rxbuf (e : Fail) (s : State) : (raise e s).rxbuf = s.rxbuf :=
  by unfold raise; split <;> rfl
@[simp] theorem raise_reqKind (e : Fail) (s : State) : (raise e s).reqKind = s.reqKind :=
  by unfold raise; split <;> rfl
@[simp] theorem raise_reqAddr (e : Fail) (s : State) : (raise e s).reqAddr = s.reqAddr :=
  by unfold raise; split <;> rfl
@[simp] theorem raise_reqSize (e : Fail) (s : State) : (raise e s).reqSize = s.reqSize :=
  by unfold raise; split <;> rfl
@[simp] theorem raise_reqData (e : Fail) (s : State) : (raise e s).reqData = s.reqData :=
  by unfold raise; split <;> rfl
@[simp] theorem raise_callData (e : Fail) (s : State) : (raise e s).callData = s.callData :=
  by unfold raise; split <;> rfl
@[simp] theorem raise_sweepIdx (e : Fail) (s : State) : (raise e s).sweepIdx = s.sweepIdx :=
  by unfold raise; split <;> rfl
@[simp] theorem raise_registry (e : Fail) (s : State) : (raise e s).registry = s.registry :=
  by unfold raise; split <;> rfl
@[simp] theorem raise_rxq (e : Fail) (s : State) : (raise e s).rxq = s.rxq := by unfold raise; split <;> rfl
@[simp] theorem raise_trace (e : Fail) (s : State) : (raise e s).trace = s.trace :=
  by unfold raise; split <;> rfl
@[simp] theorem raise_hostq (e : Fail) (s : State) : (raise e s).hostq = s.hostq :=
  by unfold raise; split <;> rfl
@[simp] theorem raise_script (e : Fail) (s : State) : (raise e s).script = s.script :=
  by unfold raise; split <;> rfl
@[simp] theorem raise_draws (e : Fail) (s : State) : (raise e s).draws = s.draws :=
  by unfold raise; split <;> rfl
@[simp] theorem raise_resetIn (e : Fail) (s : State) : (raise e s).resetIn = s.resetIn :=
  by unfold raise; split <;> rfl

end Sys2Proof.Machine
end

