-- ==== Sys2Proof/Laws/Codec.lean ====
section
/-! SUPPORT. The bytes of addresses and frames, and what the checksum accumulator and the frame builder do
to the state, each said once. -/

namespace Sys2Proof.Machine

@[simp] theorem addrOf_hi_lo (a : Addr) : addrOf (hi a) (lo a) = a := by
  unfold addrOf hi lo
  ext i hi
  simp
  grind

@[simp] theorem hi_addrOf (x y : Byte) : hi (addrOf x y) = x := by
  change ((x ++ y : BitVec (8 + 8))).extractLsb' 8 8 = x
  ext i hi
  rw [BitVec.getElem_extractLsb', BitVec.getLsbD_append, if_neg (by omega)]
  simp [hi]

@[simp] theorem lo_addrOf (x y : Byte) : lo (addrOf x y) = y := by
  unfold addrOf lo
  ext i hi
  simp
  grind

theorem byteOfNat_toNat (n : Nat) (h : n ≤ 255) : (byteOfNat n).toNat = n := by
  simp [byteOfNat]; omega

@[simp] theorem byteOfNat_self (b : Byte) : byteOfNat b.toNat = b := by
  simp [byteOfNat]

/-- The accumulator after all payload bytes: the integer sum, mod 256 (R73). -/
theorem ckAddAll_eq (p : List Byte) (s : State) :
    ckAddAll p s = { s with acc := s.acc + BitVec.ofNat 8 (byteSum p) } := by
  induction p generalizing s with
  | nil => simp [ckAddAll, byteSum]
  | cons b bs ih =>
    rw [ckAddAll, ih]
    simp only [ckAdd, byteSum, List.map_cons, List.sum_cons, BitVec.ofNat_add, BitVec.ofNat_toNat,
      BitVec.setWidth_eq, BitVec.add_assoc]

/-- `CK_RUN(L, p)` leaves checksum(L, p) in `acc` and nothing else changed (R73). -/
theorem ckRun_eq (len : Byte) (p : List Byte) (s : State) :
    ckRun len p s = { s with acc := checksum len p } := by
  have h : (0 + len + BitVec.ofNat 8 (byteSum p) : Byte) = checksum len p := by
    apply BitVec.eq_of_toNat_eq
    simp [checksum]
  simp only [ckRun, ckAddAll_eq, ckAdd, ckClear, h]

/-- The frame builder's whole effect: `acc` and `txbuf` (R74). -/
theorem buildFrame_eq (p : List Byte) (s : State) :
    buildFrame p s = { s with acc := checksum (byteOfNat p.length) p, txbuf := frameOf p } := by
  simp [buildFrame, ckRun_eq, frameOf]

@[simp] theorem frameOf_length (p : List Byte) : (frameOf p).length = p.length + 3 := by
  simp [frameOf]

/-- Bytes read as a frame are 41, a length byte, that many payload bytes and one more (R53, R54). -/
theorem decodeFrame_instr (f : List Byte → Byte → Decoded) (l : List Byte) (i : Instr)
    (h : decodeFrame f l = .instr i) :
    ∃ p ck, l = Config.startByte :: byteOfNat p.length :: (p ++ [ck]) ∧ p.length ≤ 255 ∧
      f p ck = .instr i := by
  rcases l with _ | ⟨b, _ | ⟨len, body⟩⟩
  · simp [decodeFrame] at h
  · by_cases hb : b = Config.startByte <;> simp [decodeFrame, hb] at h
  · by_cases hb : b = Config.startByte
    · by_cases hl : body.length = len.toNat + 1
      · rw [decodeFrame, if_neg (by simp [hb]), if_neg (by simp [hl])] at h
        have hlt : len.toNat < body.length := by omega
        have hlen : (body.take len.toNat).length = len.toNat := by rw [List.length_take]; omega
        refine ⟨_, _, ?_, ?_, h⟩
        · have hbody : body = body.take len.toNat ++ [body.getD len.toNat 0] := by
            conv_lhs => rw [← List.take_append_drop len.toNat body]
            congr 1
            rw [List.drop_eq_getElem_cons hlt]
            simp only [List.getD_eq_getElem?_getD, List.getElem?_eq_getElem hlt, Option.getD_some,
              List.cons.injEq, List.drop_eq_nil_iff, true_and]
            omega
          rw [hlen, byteOfNat_self, ← hbody, hb]
        · rw [hlen]; have := len.isLt; omega
      · rw [decodeFrame, if_neg (by simp [hb]), if_pos hl] at h; simp at h
    · rw [decodeFrame, if_pos hb] at h; simp at h

/-- Bytes that decode as a request frame are the frame of its payload (R53, R55). -/
theorem decode_txFrame (l : List Byte) (i : Instr) (h : decode .txFrame l = .instr i) :
    ∃ p, i = .reqFrame p ∧ p.length ≤ 100 ∧ l = frameOf p := by
  obtain ⟨p, ck, rfl, -, hf⟩ := decodeFrame_instr _ _ _ h
  by_cases h100 : p.length > Config.maxTxPayload
  · rw [decodeReqFrame, if_pos h100] at hf; simp at hf
  · by_cases hck : ck = checksum (byteOfNat p.length) p
    · rw [decodeReqFrame, if_neg h100, if_neg (by simp [hck])] at hf
      simp only [Decoded.instr.injEq] at hf
      exact ⟨p, hf.symm, by simpa [Config.maxTxPayload] using h100, by simp [frameOf, hck]⟩
    · rw [decodeReqFrame, if_neg h100, if_pos hck] at hf; simp at hf

/-- Bytes that decode as a response frame are 41, a length byte, the payload and the checksum byte. -/
theorem decode_rxFrame (l : List Byte) (i : Instr) (h : decode .rxFrame l = .instr i) :
    ∃ p ck, i = .respFrame p ck ∧ p.length ≤ 255 ∧
      l = Config.startByte :: byteOfNat p.length :: (p ++ [ck]) := by
  obtain ⟨p, ck, hl, h255, hi⟩ :=
    decodeFrame_instr (fun p ck => .instr (.respFrame p ck)) l i h
  exact ⟨p, ck, by simpa using hi.symm, h255, hl⟩

/-- A frame of at most 100 payload bytes decodes to its payload. -/
theorem decode_frameOf (p : List Byte) (h : p.length ≤ 100) :
    decode .txFrame (frameOf p) = .instr (.reqFrame p) := by
  have hn : (byteOfNat p.length).toNat = p.length := byteOfNat_toNat _ (by omega)
  simp only [decode, frameOf, List.cons_append, List.nil_append, decodeFrame]
  rw [if_neg (by simp), if_neg (by simp [hn]), hn]
  have h1 : (p ++ [checksum (byteOfNat p.length) p]).take p.length = p := by simp
  have h2 : (p ++ [checksum (byteOfNat p.length) p]).getD p.length 0
      = checksum (byteOfNat p.length) p := by simp
  rw [h1, h2, decodeReqFrame, if_neg (by simp [Config.maxTxPayload]; omega), if_neg (by simp)]

end Sys2Proof.Machine
end

