-- ==== Sys2Proof/Laws/Operands.lean ====
section
/-! SUPPORT. What the operand forms compute: register values and their bytes, text lookup by number, the
registry's lookup, a sweep's map, and the echo checks of a reply. -/

namespace Sys2Proof.Machine

/-! ### Register values (R90 to R95) -/

/-- `U(b)` is the sum of its bytes by powers of 256 (R90). -/
theorem leNat_sum (b : List Byte) : leNat b = ∑ i ∈ Finset.range b.length, (b.getD i 0).toNat * 256 ^ i := by
  induction b with
  | nil => rfl
  | cons x xs ih =>
    rw [leNat, ih, List.length_cons, Finset.sum_range_succ', Finset.mul_sum]
    simp only [List.getD_cons_succ, List.getD_cons_zero, pow_succ, pow_zero, mul_one]
    rw [add_comm]; congr 1
    apply Finset.sum_congr rfl; intro i _; ring

/-- `U(b)` fits its bytes. -/
theorem leNat_lt (b : List Byte) : leNat b < 2 ^ (8 * b.length) := by
  induction b with
  | nil => simp [leNat]
  | cons x xs ih =>
    have := x.isLt
    rw [leNat, List.length_cons, show 8 * (xs.length + 1) = 8 + 8 * xs.length by ring, pow_add]
    omega

/-- The sign bit of `U(b)` is bit 7 of the last byte (R91). -/
theorem leNat_testBit (b : List Byte) (h : b ≠ []) :
    (leNat b).testBit (8 * b.length - 1) = decide (128 ≤ (b.getD (b.length - 1) 0).toNat) := by
  induction b with
  | nil => exact absurd rfl h
  | cons x xs ih =>
    rcases xs with _ | ⟨y, ys⟩
    · have := x.isLt
      simp only [leNat, List.length_cons, List.length_nil, Nat.testBit, Nat.shiftRight_eq_div_pow]
      simp
      by_cases hx : 128 ≤ x.toNat
      · have : x.toNat / 128 = 1 := by omega
        simp [hx, this]
      · have : x.toNat / 128 = 0 := by omega
        simp [hx, this]
    · have ih' := ih (by simp)
      rw [leNat]
      have hx := x.isLt
      rw [show x.toNat + 256 * leNat (y :: ys) = 2 ^ 8 * leNat (y :: ys) + x.toNat by omega,
        Nat.testBit_two_pow_mul_add _ hx, if_neg (by simp; omega)]
      simp only [List.length_cons] at ih' ⊢
      rw [show 8 * (ys.length + 1 + 1) - 1 - 8 = 8 * (ys.length + 1) - 1 by omega, ih']
      simp

/-- The encoder gives as many bytes as asked. -/
theorem leBytes_length (n t : Nat) : (leBytes n t).length = n := by
  induction n generalizing t with
  | zero => rfl
  | succ n ih => simp [leBytes, ih]

/-- Byte i is the value divided by 256^i, mod 256 (R95). -/
theorem leBytes_getD (n t i : Nat) (h : i < n) : (leBytes n t).getD i 0 = BitVec.ofNat 8 (t / 256 ^ i) := by
  induction n generalizing t i with
  | zero => omega
  | succ n ih =>
    rcases i with _ | i
    · simp [leBytes, byteOfNat]
    · rw [leBytes, List.getD_cons_succ, ih _ _ (by omega), Nat.div_div_eq_div_mul, pow_succ, mul_comm]

/-- Encoding then decoding (R96). -/
theorem leNat_leBytes (n t : Nat) (h : t < 2 ^ (8 * n)) : leNat (leBytes n t) = t := by
  induction n generalizing t with
  | zero => simp at h; simp [leBytes, leNat, h]
  | succ n ih =>
    have : t / 256 < 2 ^ (8 * n) := by
      rw [Nat.div_lt_iff_lt_mul (by norm_num)]; rw [show 8 * (n+1) = 8 * n + 8 by ring, pow_add] at h; omega
    simp [leBytes, leNat, ih _ this, byteOfNat]; omega

/-- Decoding then encoding (R96). -/
theorem leBytes_leNat (b : List Byte) : leBytes b.length (leNat b) = b := by
  induction b with
  | nil => rfl
  | cons x xs ih =>
    have hx := x.isLt
    rw [List.length_cons, leBytes, leNat, show (x.toNat + 256 * leNat xs) / 256 = leNat xs by omega, ih]
    congr 1
    apply BitVec.eq_of_toNat_eq; simp [byteOfNat]; omega

/-- The encoder at a legal size: the bound, then the bytes (R95). -/
theorem encodeUnsigned_eq (size : Nat) (h1 : 1 ≤ size) (h4 : size ≤ 4) (v : HostNum) (t : Int)
    (hv : truncNum v = some t) :
    encodeUnsigned v size = if t < 0 ∨ 2 ^ (8 * size) ≤ t then none else some (leBytes size t.toNat) := by
  have hok : sizeOk size = true := by simp [sizeOk]; omega
  simp only [encodeUnsigned, hv, hok, if_true]
  congr 1
  apply propext; constructor <;> rintro (h | h) <;> first | exact .inl h | (right; omega)

/-- Truncation toward zero of a ratio (R8). -/
theorem truncNum_ratio (num : Int) (den : Nat) (h : 0 < den) :
    truncNum (.ratio num den) = some (num.sign * ((num.natAbs / den : Nat) : Int)) := by
  rw [truncNum, if_neg (by omega)]
  congr 1
  rcases Int.eq_nat_or_neg num with ⟨n, rfl | rfl⟩
  · rw [Int.natAbs_natCast]
    rcases Nat.eq_zero_or_pos n with rfl | hn
    · simp
    · rw [Int.sign_eq_one_of_pos (by exact_mod_cast hn), one_mul, ← Int.ofNat_tdiv]
  · rw [Int.neg_tdiv, Int.natAbs_neg, Int.natAbs_natCast]
    rcases Nat.eq_zero_or_pos n with rfl | hn
    · simp
    · rw [Int.sign_neg, Int.sign_eq_one_of_pos (by exact_mod_cast hn), ← Int.ofNat_tdiv]; simp

/-! ### Texts, registry, map (R98 to R102, R106) -/

/-- A value that is the number k equals j when k does (R98). -/
theorem numEq_number (v : Value) (k j : Int)
    (h : v = .int k ∨ ∃ d : Nat, 0 < d ∧ v = .scaled (k * (d : Int)) d) : numEq v j = decide (k = j) := by
  rcases h with rfl | ⟨d, hd, rfl⟩
  · rfl
  · simp only [numEq]
    congr 1
    apply propext
    constructor
    · rintro ⟨-, h⟩
      exact mul_right_cancel₀ (by exact_mod_cast (by omega : d ≠ 0)) h
    · rintro rfl; exact ⟨by omega, rfl⟩

/-- A scaled value that is no integer equals none (R98). -/
theorem numEq_fraction (z : Int) (d : Nat) (j : Int) (h : ¬ (d : Int) ∣ z) : numEq (.scaled z d) j = false := by
  simp only [numEq, decide_eq_false_iff_not]
  rintro ⟨-, rfl⟩
  exact h (dvd_mul_left _ _)

/-- The entry with a name, when names are unique (R102). -/
theorem lookupName_unique (r : List SensorDef) (d : SensorDef) (name : String)
    (hu : uniqueNames (r.map SensorDef.name) = true)
    (hd : d ∈ r) (hn : d.name = name) : lookupName r name = some d := by
  induction r with
  | nil => cases hd
  | cons x xs ih =>
    simp only [List.map_cons, uniqueNames, Bool.and_eq_true, Bool.not_eq_true', List.contains_eq_mem,
        decide_eq_false_iff_not, List.mem_map] at hu
    rcases List.mem_cons.1 hd with rfl | hd
    · simp [lookupName, hn]
    · have hx : x.name ≠ name := fun e => hu.1 ⟨d, hd, by rw [hn, e]⟩
      have := ih hu.2 hd
      simp only [lookupName, List.find?_cons, hx, decide_false] at this ⊢
      exact this

/-- What a map gives after an assignment. -/
theorem mapGet_mapSet (m : SweepMap) (n k : String) (v : Field) :
    mapGet (mapSet m n v) k = if n = k then some v else mapGet m k := by
  induction m with
  | nil => simp [mapSet, mapGet]
  | cons e m ih =>
    rcases e with ⟨a, w⟩
    simp only [mapSet]
    split <;> simp only [mapGet] <;> split <;> simp_all [eq_comm]

/-- What a map gives after one derived field (R106). -/
theorem mapGet_addText (f : Value → Text) (src dst : String) (m : SweepMap) (k : String) :
    mapGet (addText f src dst m) k = match mapGet m src with
      | none => mapGet m k
      | some x => if dst = k then some (.text (fieldText f x)) else mapGet m k := by
  unfold addText
  rcases mapGet m src with _ | x
  · rfl
  · simp [mapGet_mapSet]

/-! ### Echo checks (R85, R87) -/

/-- A big-endian address equals a request's when both bytes do (R37). -/
theorem addr_bytes (a : Addr) (x y : Byte) : (x.toNat * 256 + y.toNat = a.toNat) ↔ (x = hi a ∧ y = lo a) := by
  have h1 : (hi a).toNat = a.toNat / 256 := by
    simp [hi, BitVec.extractLsb', Nat.shiftRight_eq_div_pow]; omega
  have h2 : (lo a).toNat = a.toNat % 256 := by simp [lo, BitVec.extractLsb']
  constructor
  · intro h
    constructor <;> apply BitVec.eq_of_toNat_eq <;> omega
  · rintro ⟨rfl, rfl⟩; omega

/-- Two addresses with equal bytes are equal. -/
theorem addr_ext (a b : Addr) : (hi a = hi b ∧ lo a = lo b) ↔ a = b := by
  constructor
  · rintro ⟨h1, h2⟩; rw [← addrOf_hi_lo a, ← addrOf_hi_lo b, h1, h2]
  · rintro rfl; exact ⟨rfl, rfl⟩

/-- The read check on a read response: address, size and data length (R85). -/
theorem readCheck_iff (a addr : Addr) (m n : Byte) (data : List Byte) :
    readCheck a m ([0x01, 0x01, hi addr, lo addr, n] ++ data) =
      if addr = a ∧ n = m ∧ data.length = n.toNat then none else some failReadResponse := by
  unfold readCheck
  have := addr_ext addr a
  by_cases h1 : addr = a
  · subst h1
    by_cases h2 : n = m
    · subst h2
      by_cases h3 : data.length = n.toNat
      · simp [h3, Nat.add_comm]; omega
      · simp [h3]; omega
    · simp [h2]
  · have hn : ¬ hi addr = hi a ∨ ¬ lo addr = lo a := by tauto
    simp [hn, h1]

/-- The write check passes the echo of its request (R87). -/
theorem writeCheck_echo (addr : Addr) (n : Byte) :
    writeCheck addr n [0x01, 0x02, hi addr, lo addr, n] = none := by simp [writeCheck]

end Sys2Proof.Machine
end

