-- ==== Sys2Proof/Laws/PerInstr.lean ====
section
/-! SUPPORT. Statements made per instruction: the shape of what the encoder gives (R50). -/

namespace Sys2Proof.Laws.WireShape

/-- What the encoder gives for a well-formed instruction stands in one of the line's slots and is 1 to 258
bytes long (R50: the longest message is a frame of 255 payload bytes). -/
def Statement (i : Instr) : Prop :=
  i.wf = true → ∀ l, encode i = some l → i.slot.isSome = true ∧ 1 ≤ l.length ∧ l.length ≤ 258

theorem wake : Statement .wake := by simp [Statement, encode, Instr.slot]
theorem wakeAck : Statement .wakeAck := by simp [Statement, encode, Instr.slot]
theorem sync : Statement .sync := by simp [Statement, encode, Instr.slot]
theorem syncAck : Statement .syncAck := by simp [Statement, encode, Instr.slot]
theorem ack : Statement .ack := by simp [Statement, encode, Instr.slot]
theorem nak : Statement .nak := by simp [Statement, encode, Instr.slot]
theorem reqFrame (payload : List Byte) : Statement (.reqFrame payload) := by
  simp [Statement, encode, Instr.slot, Instr.wf]; omega
theorem respFrame (payload : List Byte) (ck : Byte) : Statement (.respFrame payload ck) := by
  simp [Statement, encode, Instr.slot, Instr.wf]; omega
theorem readReq (addr : Addr) (size : Byte) : Statement (.readReq addr size) := by
  simp [Statement, encode, Instr.slot, readReqPayload]
theorem readRsp (addr : Addr) (size : Byte) (data : List Byte) : Statement (.readRsp addr size data) := by
  simp [Statement, encode, Instr.slot, Instr.wf, readRspPayload, sizeOk]; omega
theorem writeReq (addr : Addr) (data : List Byte) : Statement (.writeReq addr data) := by
  simp [Statement, encode, Instr.slot, Instr.wf, writeReqPayload]; omega
theorem writeRsp (addr : Addr) (n : Byte) : Statement (.writeRsp addr n) := by
  simp [Statement, encode, Instr.slot, writeRspPayload]
theorem openCmd (path : String) : Statement (.openCmd path) := by simp [Statement, encode]
theorem getMeasurements : Statement .getMeasurements := by simp [Statement, encode]
theorem writeValue (name : String) (value : HostNum) : Statement (.writeValue name value) := by
  simp [Statement, encode]
theorem closeCmd : Statement .closeCmd := by simp [Statement, encode]
theorem handshake : Statement .handshake := by simp [Statement, encode]
theorem ckClear : Statement .ckClear := by simp [Statement, encode]
theorem ckAdd (b : Byte) : Statement (.ckAdd b) := by simp [Statement, encode]
theorem ckRun (len : Byte) (p : List Byte) : Statement (.ckRun len p) := by simp [Statement, encode]
theorem build (p : List Byte) : Statement (.build p) := by simp [Statement, encode]
theorem parse : Statement .parse := by simp [Statement, encode]
theorem execute (p : List Byte) : Statement (.execute p) := by simp [Statement, encode]
theorem regRead (addr : Addr) (size : Int) : Statement (.regRead addr size) := by simp [Statement, encode]
theorem readCheck (rsp : List Byte) : Statement (.readCheck rsp) := by simp [Statement, encode]
theorem regWrite (addr : Addr) (data : List Byte) : Statement (.regWrite addr data) := by
  simp [Statement, encode]
theorem writeCheck (rsp : List Byte) : Statement (.writeCheck rsp) := by simp [Statement, encode]
theorem decode (kind : Kind) (b : List Byte) : Statement (.decode kind b) := by simp [Statement, encode]
theorem decodeSigned (b : List Byte) (size : Nat) : Statement (.decodeSigned b size) := by
  simp [Statement, encode]
theorem decodeUnsigned (b : List Byte) (size : Nat) : Statement (.decodeUnsigned b size) := by
  simp [Statement, encode]
theorem decodeScaled (b : List Byte) (size divisor : Nat) : Statement (.decodeScaled b size divisor) := by
  simp [Statement, encode]
theorem encodeUnsigned (v : HostNum) (size : Nat) : Statement (.encodeUnsigned v size) := by
  simp [Statement, encode]
theorem modeText (v : Value) : Statement (.modeText v) := by simp [Statement, encode]
theorem valveText (v : Value) : Statement (.valveText v) := by simp [Statement, encode]
theorem lookup (name : String) : Statement (.lookup name) := by simp [Statement, encode]
theorem addDerived (m : SweepMap) : Statement (.addDerived m) := by simp [Statement, encode]

end Sys2Proof.Laws.WireShape
end

