-- ==== Sys2Proof/Laws/Sequencer.lean ====
section
/-! SUPPORT. What one step of the sequencer does in each phase, said once, with the fetch and the decoder
already resolved; that the machine's step is that step; and how an operation is driven to its end. -/

namespace Sys2Proof.Machine

/-- A read gives at most the bytes asked for (R32). -/
theorem readBytes_length_le (n : Nat) (s : State) : (s.readBytes n).length ≤ n := by
  simp only [State.readBytes, List.length_take]; omega

/-- A read of one byte gives no byte, or one (R32). -/
theorem readBytes_one (s : State) : s.readBytes 1 = [] ∨ ∃ b, s.readBytes 1 = [b] := by
  have h := readBytes_length_le 1 s
  rcases hr : s.readBytes 1 with _ | ⟨b, _ | ⟨c, l⟩⟩
  · exact .inl rfl
  · exact .inr ⟨b, rfl⟩
  · simp [hr] at h

/-! ### The meaning of a fetched message -/

/-- The message found in a frame about to be sent is the transmission of that frame's payload. -/
theorem requestOf_runs (l : List Byte) (i : Instr) (h : requestOf l = some i) :
    ∃ p, p.length ≤ 100 ∧ l = frameOf p ∧ i.slot.isSome ∧ ∀ s, runMessage i s = requestSent p s := by
  unfold requestOf at h
  split at h
  · rename_i p hp
    obtain ⟨p', hp', h100, rfl⟩ := decode_txFrame _ _ hp
    obtain rfl : p = p' := by simpa using hp'
    refine ⟨p, h100, rfl, ?_⟩
    rcases p with _ | ⟨msg, _ | ⟨acc, _ | ⟨ah, _ | ⟨al, _ | ⟨sz, data⟩⟩⟩⟩⟩ <;>
      simp only [decode, decodePayload, Option.some.injEq] at h
    case cons.cons.cons.cons.cons =>
      by_cases c1 : msg = 0x00 ∧ acc = 0x01
      · rw [if_pos c1] at h
        by_cases d : data = []
        · rw [if_pos d] at h
          simp only [Option.some.injEq] at h
          subst h d
          obtain ⟨rfl, rfl⟩ := c1
          simp [runMessage, readReqPayload, Instr.slot]
        · rw [if_neg d] at h
          simp only [Option.some.injEq] at h
          subst h; simp [runMessage, Instr.slot]
      · rw [if_neg c1] at h
        by_cases c2 : msg = 0x01 ∧ acc = 0x01
        · rw [if_pos c2] at h
          by_cases d : data.length = sz.toNat
          · rw [if_pos d] at h
            simp only [Option.some.injEq] at h
            subst h; simp [runMessage, Instr.slot]
          · rw [if_neg d] at h
            simp only [Option.some.injEq] at h
            subst h; simp [runMessage, Instr.slot]
        · rw [if_neg c2] at h
          by_cases c3 : msg = 0x00 ∧ acc = 0x02
          · rw [if_pos c3] at h
            by_cases d : data.length = sz.toNat
            · rw [if_pos d] at h
              simp only [Option.some.injEq] at h
              subst h
              obtain ⟨rfl, rfl⟩ := c3
              have hsz : sizeReg data.length = sz := by
                rw [sizeReg, d, if_pos (by have := sz.isLt; omega), byteOfNat_self]
              simp [runMessage, writeReqPayload, Instr.slot, hsz]
            · rw [if_neg d] at h
              simp only [Option.some.injEq] at h
              subst h; simp [runMessage, Instr.slot]
          · rw [if_neg c3] at h
            by_cases c4 : msg = 0x01 ∧ acc = 0x02
            · rw [if_pos c4] at h
              by_cases d : data = []
              · rw [if_pos d] at h
                simp only [Option.some.injEq] at h
                subst h; simp [runMessage, Instr.slot]
              · rw [if_neg d] at h
                simp only [Option.some.injEq] at h
                subst h; simp [runMessage, Instr.slot]
            · rw [if_neg c4] at h
              simp only [Option.some.injEq] at h
              subst h; simp [runMessage, Instr.slot]
    all_goals (subst h; simp [runMessage, Instr.slot])
  · simp at h

/-- A request frame about to be sent is always recognised. -/
theorem requestOf_frameOf (p : List Byte) (h : p.length ≤ 100) :
    ∃ i, requestOf (frameOf p) = some i ∧ i.slot.isSome ∧ ∀ s, runMessage i s = requestSent p s := by
  have hs : ∃ i, requestOf (frameOf p) = some i := by
    unfold requestOf
    rw [decode_frameOf p h]
    simp only
    split <;> exact ⟨_, rfl⟩
  obtain ⟨i, hi⟩ := hs
  obtain ⟨q, -, hq, hsl, hr⟩ := requestOf_runs _ _ hi
  have : p = q := by
    have hl : p.length = q.length := by simpa using congrArg List.length hq
    simp only [frameOf, List.cons_append, List.nil_append, List.cons.injEq] at hq
    exact List.append_inj_left hq.2.2 hl
  subst this
  exact ⟨i, hi, hsl, hr⟩

/-- The message found in a reply payload is that payload's echo check. -/
theorem replyOf_runs (p : List Byte) (i : Instr) (h : replyOf p = some i) :
    i.slot.isSome ∧ ∀ s, runMessage i s = replyReceived p s := by
  unfold replyOf at h
  rcases p with _ | ⟨msg, _ | ⟨acc, _ | ⟨ah, _ | ⟨al, _ | ⟨sz, data⟩⟩⟩⟩⟩ <;>
    simp only [decode, decodePayload, reduceCtorEq] at h
  by_cases c1 : msg = 0x00 ∧ acc = 0x01
  · rw [if_pos c1] at h
    by_cases d : data = [] <;> simp [d] at h
  · rw [if_neg c1] at h
    by_cases c2 : msg = 0x01 ∧ acc = 0x01
    · rw [if_pos c2] at h
      by_cases d : data.length = sz.toNat
      · rw [if_pos d] at h
        simp only [Option.some.injEq] at h
        subst h
        obtain ⟨rfl, rfl⟩ := c2
        simp [runMessage, readRspPayload, Instr.slot]
      · simp [d] at h
    · rw [if_neg c2] at h
      by_cases c3 : msg = 0x00 ∧ acc = 0x02
      · rw [if_pos c3] at h
        by_cases d : data.length = sz.toNat <;> simp [d] at h
      · rw [if_neg c3] at h
        by_cases c4 : msg = 0x01 ∧ acc = 0x02
        · rw [if_pos c4] at h
          by_cases d : data = []
          · rw [if_pos d] at h
            simp only [Option.some.injEq] at h
            subst h d
            obtain ⟨rfl, rfl⟩ := c4
            simp [runMessage, writeRspPayload, Instr.slot]
          · simp [d] at h
        · rw [if_neg c4] at h
          simp at h

/-- Executing a wire message is what the sequencer does with it. -/
theorem exec_wire (i : Instr) (s : State) (h : i.slot.isSome) : exec i s = .next (runMessage i s) := by
  cases i <;> first | rfl | simp [Instr.slot] at h

/-! ### One step, phase by phase -/

/-- With no operation running and the block not at `IDLE`, the step goes to `IDLE` (log 16). -/
theorem advance_stray (s : State) (ht : s.task = .idle) (hp : s.phase ≠ .idle) :
    advance s = { s with phase := .idle } := by
  simp [advance, fetch, ht, phaseStep, hp]

/-- `IDLE` (R103, R110). -/
theorem advance_idle (s : State) (hp : s.phase = .idle) : advance s = idleStep s := by
  by_cases ht : s.task = .idle <;> simp [advance, fetch, ht, phaseStep, hp]

/-- `OPEN_PORT` (R104). -/
theorem advance_openPort (s : State) (ht : s.task ≠ .idle) (hp : s.phase = .openPort) :
    advance s = openPortStep s := by
  simp [advance, fetch, ht, phaseStep, hp]

/-- `HS_WAKE_TX` (R68). -/
theorem advance_hsWakeTx (s : State) (ht : s.task ≠ .idle) (hp : s.phase = .hsWakeTx) :
    advance s = wakeSend s := by
  simp [advance, fetch, ht, hp, fetchHeld, decode, decodeOne, Decoded.instr?, runMessage]

/-- `HS_WAKE_RX` (R68): 0x05 leaves the loop, anything else is a failed attempt. -/
theorem advance_hsWakeRx (s : State) (ht : s.task ≠ .idle) (hp : s.phase = .hsWakeRx) :
    advance s = if s.readBytes 1 = [0x05] then wakeAcked (rxRead 1 s)
      else wakeMissed (s.readBytes 1) (rxRead 1 s) := by
  obtain h | ⟨b, h⟩ := readBytes_one s
  · simp [advance, fetch, ht, hp, fetchByte, decode, decodeOne, Decoded.instr?, h, phaseStep]
  · by_cases hb : b = 0x05
    · subst hb
      simp [advance, fetch, ht, hp, fetchByte, decode, decodeOne, Decoded.instr?, h, runMessage,
        Config.wakeAckByte]
    · have hd : decode .wakeRx [b] = .reject (.notWakeAck b) := if_neg hb
      rw [if_neg (by rw [h]; exact fun e => hb (List.cons.inj e).1)]
      simp [advance, fetch, ht, hp, fetchByte, hd, Decoded.instr?, h, phaseStep]

/-- `HS_SYNC_TX` (R69). -/
theorem advance_hsSyncTx (s : State) (ht : s.task ≠ .idle) (hp : s.phase = .hsSyncTx) :
    advance s = syncSend s := by
  simp [advance, fetch, ht, hp, fetchHeld, decode, Decoded.instr?, runMessage]

/-- `HS_SYNC_RX` (R69): 0x06 is the sync acknowledge, anything else rejects. -/
theorem advance_hsSyncRx (s : State) (ht : s.task ≠ .idle) (hp : s.phase = .hsSyncRx) :
    advance s = if s.readBytes 1 = [0x06] then syncAcked (rxRead 1 s)
      else syncMissed (s.readBytes 1) (rxRead 1 s) := by
  obtain h | ⟨b, h⟩ := readBytes_one s
  · simp [advance, fetch, ht, hp, fetchByte, decode, decodeOne, Decoded.instr?, h, phaseStep]
  · by_cases hb : b = 0x06
    · subst hb
      simp [advance, fetch, ht, hp, fetchByte, decode, decodeOne, Decoded.instr?, h, runMessage,
        Config.ackByte]
    · have hd : decode .syncRx [b] = .reject (.notSyncAck b) := if_neg hb
      rw [if_neg (by rw [h]; exact fun e => hb (List.cons.inj e).1)]
      simp [advance, fetch, ht, hp, fetchByte, hd, Decoded.instr?, h, phaseStep]

/-- `TX_FLUSH` (R82). -/
theorem advance_txFlush (s : State) (ht : s.task ≠ .idle) (hp : s.phase = .txFlush) :
    advance s = flushStep s := by
  simp [advance, fetch, ht, phaseStep, hp]

/-- `TX_FRAME` (R82) with a frame in `txbuf`: it is transmitted. -/
theorem advance_txFrame (s : State) (p : List Byte) (ht : s.task ≠ .idle) (hp : s.phase = .txFrame)
    (hl : p.length ≤ 100) (hb : s.txbuf = frameOf p) : advance s = requestSent p s := by
  obtain ⟨i, hi, -, hr⟩ := requestOf_frameOf p hl
  simp [advance, fetch, ht, hp, hb, hi, hr]

/-- `TX_FRAME` with what is no frame in `txbuf`. -/
theorem advance_txFrame_raw (s : State) (ht : s.task ≠ .idle) (hp : s.phase = .txFrame)
    (hb : ∀ p, p.length ≤ 100 → s.txbuf ≠ frameOf p) : advance s = transmit s := by
  have hn : requestOf s.txbuf = none := by
    rcases hr : requestOf s.txbuf with _ | i
    · rfl
    · obtain ⟨p, hl, he, -⟩ := requestOf_runs _ _ hr
      exact absurd he (hb p hl)
  simp [advance, fetch, ht, hp, hn, phaseStep]

/-- `RX_ACK` (R75). -/
theorem advance_rxAck (s : State) (ht : s.task ≠ .idle) (hp : s.phase = .rxAck) :
    advance s = if s.readBytes 1 = [0x06] then ackReceived (rxRead 1 s)
      else if s.readBytes 1 = [0x15] then nakReceived (rxRead 1 s)
      else ackMissed (s.readBytes 1) (rxRead 1 s) := by
  obtain h | ⟨b, h⟩ := readBytes_one s
  · simp [advance, fetch, ht, hp, fetchByte, decode, decodeOne, Decoded.instr?, h, phaseStep]
  · by_cases hb : b = 0x06
    · subst hb
      simp [advance, fetch, ht, hp, fetchByte, decode, decodeOne, Decoded.instr?, h, runMessage,
        Config.ackByte]
    · rw [if_neg (by rw [h]; exact fun e => hb (List.cons.inj e).1)]
      by_cases hn : b = 0x15
      · subst hn
        simp [advance, fetch, ht, hp, fetchByte, decode, decodeOne, Decoded.instr?, h, runMessage,
          Config.ackByte, Config.nakByte]
      · have hd : decode .rxAck [b] = .reject (.notAckNorNak b) := (if_neg hb).trans (if_neg hn)
        rw [if_neg (by rw [h]; exact fun e => hn (List.cons.inj e).1)]
        simp [advance, fetch, ht, hp, fetchByte, hd, Decoded.instr?, h, phaseStep]

/-- `RX_START` (R76). -/
theorem advance_rxStart (s : State) (ht : s.task ≠ .idle) (hp : s.phase = .rxStart) :
    advance s = startStep s := by
  simp [advance, fetch, ht, phaseStep, hp]

/-- `RX_LEN` (R77). -/
theorem advance_rxLen (s : State) (ht : s.task ≠ .idle) (hp : s.phase = .rxLen) :
    advance s = lenStep s := by
  simp [advance, fetch, ht, phaseStep, hp]

/-- `RX_BODY` (R78). -/
theorem advance_rxBody (s : State) (ht : s.task ≠ .idle) (hp : s.phase = .rxBody) :
    advance s = bodyStep s := by
  simp [advance, fetch, ht, phaseStep, hp]

/-- `CHECK`, first the checksum (R79). -/
theorem advance_check (s : State) (ht : s.task ≠ .idle) (hp : s.phase = .check) (hr : s.rsp = none) :
    advance s = checkFrame s := by
  simp only [advance, fetch, ht, if_false, hp, hr, fetchHeld]
  rcases hd : decode .rxFrame (s.startByte :: s.declaredSize :: s.rxbuf) with i | r
  · obtain ⟨p, ck, rfl, -, hl⟩ := decode_rxFrame _ _ hd
    simp only [List.cons.injEq] at hl
    simp only [Decoded.instr?, runMessage, frameReceived, ← hl.1, ← hl.2.1, ← hl.2.2]
  · simp [Decoded.instr?, phaseStep, ht, hp, hr]

/-- `CHECK`, then the echo of the reply (R85, R87). -/
theorem advance_echo (s : State) (p : List Byte) (ht : s.task ≠ .idle) (hp : s.phase = .check)
    (hr : s.rsp = some p) : advance s = echoCheck p s := by
  have hsame : ({ s with phase := .check, rsp := some p } : State) = s := by
    cases s; simp_all
  simp only [advance, fetch, ht, if_false, hp, hr]
  rcases hq : replyOf p with _ | i
  · simp [phaseStep, ht, hp, hr]
  · simp [(replyOf_runs _ _ hq).2 s, replyReceived, hsame]

/-- `DECODE` (R105). -/
theorem advance_decode (s : State) (ht : s.task ≠ .idle) (hp : s.phase = .decode) :
    advance s = decodeStep s := by
  simp [advance, fetch, ht, phaseStep, hp]

/-- `CLOSE_PORT` (R104, R108). -/
theorem advance_closePort (s : State) (ht : s.task ≠ .idle) (hp : s.phase = .closePort) :
    advance s = closePortStep s := by
  simp [advance, fetch, ht, phaseStep, hp]

/-! ### The machine's step is the sequencer's -/

/-- Whatever is fetched is a message of the line. -/
theorem fetch_slot (s : State) (i : Instr) (h : (fetch s).instr = some i) : i.slot.isSome := by
  have one : ∀ (f : Byte → Decoded) (l : List Byte), (∀ b j, f b = .instr j → j.slot.isSome) →
      (decodeOne f l).instr? = some i → i.slot.isSome := by
    intro f l hf hd
    rcases l with _ | ⟨b, _ | ⟨c, l⟩⟩ <;> simp only [decodeOne, Decoded.instr?, reduceCtorEq] at hd
    rcases hb : f b with j | r <;> rw [hb] at hd <;> simp at hd
    exact hd ▸ hf b j hb
  unfold fetch at h
  split at h
  · simp at h
  · split at h
    · simp only [fetchHeld, decode, decodeOne, Decoded.instr?, if_true, Option.some.injEq] at h
      subst h; rfl
    · refine one _ _ ?_ h
      intro b j hb; split at hb <;> simp at hb; subst hb; rfl
    · simp only [fetchHeld, decode, Decoded.instr?, if_true, Option.some.injEq] at h
      subst h; rfl
    · refine one _ _ ?_ h
      intro b j hb; split at hb <;> simp at hb; subst hb; rfl
    · exact (requestOf_runs _ _ h).choose_spec.2.2.1
    · refine one _ _ ?_ h
      intro b j hb; split at hb
      · simp at hb; subst hb; rfl
      · split at hb <;> simp at hb; subst hb; rfl
    · split at h
      · simp only [fetchHeld] at h
        rcases hd : decode .rxFrame (s.startByte :: s.declaredSize :: s.rxbuf) with j | r <;>
          rw [hd] at h <;> simp [Decoded.instr?] at h
        obtain ⟨p, ck, rfl, -, -⟩ := decode_rxFrame _ _ hd
        subst h; rfl
      · exact (replyOf_runs _ _ h).1
    all_goals simp at h

/-- The sequencer's step is `advance`, and it always answers. -/
theorem sequencerStep_eq (s : State) : sequencerStep s = .next (advance s) := by
  simp only [sequencerStep, advance]
  rcases hf : (fetch s).instr with _ | i
  · rfl
  · exact exec_wire _ _ (fetch_slot s i hf)

/-- With no reset due, the machine's step is one step of the sequencer with the peer's bytes (R34). -/
theorem step_eq_tick (s : State) (h : s.resetIn = []) : step s = .next (tick s) := by
  simp only [step, h, sequencerStep_eq, withPeer, tick]

/-! ### Driving an operation to its end -/

/-- An operation that has ended stays where it is. -/
@[simp] theorem drive_done (n : Nat) (s : State) (h : s.task = .idle) : drive n s = s := by
  cases n <;> simp [drive, h]

/-- An operation that runs takes a step. -/
theorem drive_more (n : Nat) (s : State) (h : s.task ≠ .idle) : drive (n + 1) s = drive n (tick s) := by
  simp [drive, h]

/-- What every step keeps, a driven operation keeps. -/
theorem drive_keeps (P : State → Prop) (h : ∀ s, P s → P (tick s)) (n : Nat) (s : State) (hs : P s) :
    P (drive n s) := by
  induction n generalizing s with
  | zero => exact hs
  | succ n ih =>
    unfold drive
    split
    · exact hs
    · exact ih _ (h s hs)

end Sys2Proof.Machine
end

