-- ==== Sys2Proof/Laws/Run.lean ====
section
/-! SUPPORT. What running to the end does: raising an error by the operation that runs, a draw taken from the
script, a frame sent whole, and the parse steps of an operation run on its own. -/

namespace Sys2Proof.Machine

/-! ### Draws and sending -/

/-- The next draw is the script's head. -/
theorem nextDraw_of (s : State) (d : Draw) (ds : List Draw) (h : s.script = d :: ds) :
    s.nextDraw = d := by simp [State.nextDraw, h]

/-- A read whose draw the script gives. -/
theorem rxRead_of (n : Nat) (s : State) (d : Draw) (ds : List Draw) (h : s.script = d :: ds) :
      rxRead n s = { s with
      rxq := (s.rxq ++ d.arrive).drop n
      trace := s.trace ++ [.rx n ((s.rxq ++ d.arrive).take n)] } := by
  simp [rxRead, State.readBytes, State.nextDraw, h]

/-- The end of a step whose draw the script gives (R34). -/
theorem endStep_of (s : State) (d : Draw) (ds : List Draw) (h : s.script = d :: ds) :
    endStep s = { s with script := ds, rxq := s.rxq ++ d.late } := by
  simp [endStep, State.nextDraw, State.afterDraw, h]

/-- A step at whose end the peer appends nothing (R34). -/
theorem endStep_quiet (s : State) (d : Draw) (ds : List Draw) (h : s.script = d :: ds) (hl : d.late = []) :
    endStep s = { s with script := ds } := by
  rw [endStep_of s d ds h, hl, List.append_nil]

/-- The end of a step reads nothing of the task. -/
theorem endStep_withTask (t : Task) (s : State) :
    { endStep s with task := t } = endStep { s with task := t } := by
  simp only [endStep, State.afterDraw, State.nextDraw]
  split <;> rfl

/-- The next step's draw after the end of a step (log 1). -/
theorem endStep_nextDraw (s : State) : (endStep s).nextDraw = s.afterDraw.nextDraw := by
  simp only [State.nextDraw, endStep_script, endStep_draws]

/-- `req_data` never holds more than 95 bytes (R21; log 17). -/
theorem dataReg_length_le (data : List Byte) : (dataReg data).length ≤ 95 := by
  unfold dataReg
  split
  · assumption
  · exact List.length_take_le _ _

/-- It holds the data of every write that can be sent (R86). -/
theorem dataReg_of_le (data : List Byte) (h : data.length ≤ 95) : dataReg data = data := if_pos h

/-- The bytes of a read whose draw the script gives. -/
theorem readBytes_of (n : Nat) (s : State) (d : Draw) (ds : List Draw) (h : s.script = d :: ds) :
    s.readBytes n = (s.rxq ++ d.arrive).take n := by simp [State.readBytes, State.nextDraw, h]

/-- What stands first in `rxq` is what a read of that length gives (R32). -/
theorem readBytes_prefix (s : State) (l m : List Byte) (h : s.rxq = l ++ m) : s.readBytes l.length = l := by
  simp [State.readBytes, h]

/-- What a read of a prefix leaves in `rxq` (R32). -/
theorem rxRead_rxq_prefix (s : State) (l m : List Byte) (h : s.rxq = l ++ m) :
    (rxRead l.length s).rxq = m ++ s.nextDraw.arrive := by
  simp [rxRead, h]

/-- A frame that the port accepts whole (R74, R82). -/
theorem sendFrame_ok (s : State) (p : List Byte) (h : p.length ≤ 100) (ha : p.length + 3 ≤ s.nextDraw.accept) :
   sendFrame p s = { s with
        acc := checksum (byteOfNat p.length) p
        txbuf := frameOf p
        rxq := s.rxq ++ s.nextDraw.arrive
        trace := s.trace ++ [.tx (frameOf p) (p.length + 3)]
        phase := .rxAck } := by
  simp only [sendFrame, tooLarge, Config.maxTxPayload, show ¬ p.length > 100 by omega, decide_false,
      Bool.false_eq_true, if_false, buildFrame_eq, transmit, State.accepted, frameOf_length]
  have hnd : ({ s with acc := checksum (byteOfNat p.length) p, txbuf := frameOf p, phase := .txFrame } :
      State).nextDraw = s.nextDraw := by
    simp [State.nextDraw]
  simp only [hnd]
  rw [if_neg (by omega)]
  simp only [txWrite, hnd, State.accepted, frameOf_length]
  rw [show min s.nextDraw.accept (p.length + 3) = p.length + 3 by omega]

/-! ### Raising an error (R114) -/

/-- No OPEN runs: the one operation that goes on after an error (R104). -/
def EndsOnError (s : State) : Prop := ∀ p, s.task ≠ .opening p

/-- Elsewhere an error ends the operation. -/
theorem raise_task (e : Fail) (s : State) (h : EndsOnError s) : (raise e s).task = .idle := by
  unfold raise
  split
  · rename_i p hp; exact absurd hp (h p)
  all_goals rfl

/-- A line operation run on its own, which ends with the error itself. -/
def LineOp (t : Task) : Prop := t = .parse ∨ (∃ p, t = .execute p) ∨ t = .regRead ∨ t = .regWrite

/-- There an error is written to `err` and is the operation's result, and nothing else changes (R10, R115). -/
theorem raise_local (e : Fail) (s : State) (h : LineOp s.task) :
    raise e s = finishOp (.err { fail := e }) (writeErr e s) := by
  rcases h with h | ⟨q, h⟩ | h | h <;> simp [raise, h]

/-! ### Driving an operation to its end (R135) -/

/-- Once it has ended, more steps change nothing. -/
theorem drive_ge {k n : Nat} {s : State} (h : (drive k s).task = .idle) (hk : k ≤ n) :
    drive n s = drive k s := by
  induction k generalizing s n with
  | zero => exact drive_done _ _ h
  | succ k ih =>
    by_cases ht : s.task = .idle
    · rw [drive_done _ _ ht, drive_done _ _ ht]
    · obtain ⟨m, rfl⟩ : ∃ m, n = m + 1 := ⟨n - 1, by omega⟩
      rw [drive_more _ _ ht] at h
      rw [drive_more _ _ ht, drive_more _ _ ht]
      exact ih h (by omega)

/-- What every step of a running operation keeps, the driven operation keeps. -/
theorem drive_keeps_running (P : State → Prop) (h : ∀ s, s.task ≠ .idle → P s → P (tick s))
    (n : Nat) (s : State) (hs : P s) :
    P (drive n s) := by
  induction n generalizing s with
  | zero => exact hs
  | succ n ih =>
    unfold drive
    split
    · exact hs
    · rename_i ht; exact ih _ (h s ht hs)

/-- A host command at `IDLE` is run to its end (R103). -/
theorem exec_cmd (s : State) (c : HostCmd) (h : s.phase = .idle) : exec c.instr s = .next (runCmd c s) := by
  cases c <;> simp [HostCmd.instr, exec, execOpen, execGetMeasurements, execWriteValue, execClose,
      whenIdle, State.busy, h]

/-- A command that ends on acceptance (R103, R107, R108). -/
theorem runCmd_done (s : State) (c : HostCmd) (h : (acceptCmd c s).task = .idle) :
    runCmd c s = endStep (acceptCmd c s) := by
  rw [runCmd, drive_done _ _ (by simpa using h)]

/-! ### The parse steps of PARSE and EXECUTE (R75 to R79) -/

/-- `PARSE` or `EXECUTE` run on its own: the parse's result is the operation's. -/
def ParseOp (t : Task) : Prop := t = .parse ∨ ∃ p, t = .execute p

/-- An error of the ACK step ends the operation (R75). -/
theorem ackMissed_task (r : List Byte) (s : State) (h : EndsOnError s) : (ackMissed r s).task = .idle := by
  unfold ackMissed; split <;> exact raise_task _ _ h

/-- No OPEN runs under it. -/
theorem ParseOp.ends {s : State} (h : ParseOp s.task) : EndsOnError s := by
  intro p; rcases h with h | ⟨q, h⟩ <;> simp [h]

/-- It runs. -/
theorem ParseOp.run {s : State} (h : ParseOp s.task) : s.task ≠ .idle := by
  rcases h with h | ⟨q, h⟩ <;> simp [h]

/-- The parse returns to nobody. -/
theorem parseReturn_plain (p : List Byte) (s : State) (h : ParseOp s.task) :
    parseReturn p s = finishOp (.ok (.bytes p)) s := by
  rcases h with h | ⟨q, h⟩ <;> simp [parseReturn, h]

/-- So does an error. -/
theorem raise_plain (e : Fail) (s : State) (h : ParseOp s.task) :
    raise e s = finishOp (.err { fail := e }) (writeErr e s) := by
  rcases h with h | ⟨q, h⟩ <;> simp [raise, h]

/-- R79, the last step. -/
theorem drive_check (n : Nat) (s : State) (hp : s.phase = .check) (hr : s.rsp = none) (ht : ParseOp s.task) :
    drive (n+1) s = endStep (checkFrame s) := by
  rw [drive_more _ _ ht.run, tick, advance_check _ ht.run hp hr]
  apply drive_done
  simp only [endStep_task, checkFrame, ckRun_eq]
  split
  · exact raise_task _ _ (by simpa [EndsOnError] using ht.ends)
  · split
    · exact raise_task _ _ (by simpa [EndsOnError] using ht.ends)
    · rw [parseReturn_plain _ _ (by simpa using ht)]; rfl

/-- R78, then R79. -/
theorem drive_body (n : Nat) (s : State) (hp : s.phase = .rxBody) (ht : ParseOp s.task) :
    drive (n+2) s = if (s.readBytes (s.declaredSize.toNat + 1)).length < s.declaredSize.toNat + 1 then
        endStep (bodyStep s) else endStep (checkFrame (endStep (bodyStep s))) := by
  rw [drive_more _ _ ht.run, tick, advance_rxBody _ ht.run hp]
  simp only [bodyStep]
  split
  · apply drive_done; rw [endStep_task]; exact raise_task _ _ (by simpa [EndsOnError] using ht.ends)
  · rw [drive_check] <;> simp [ht]

/-- R77. -/
theorem drive_len (n : Nat) (s : State) (hp : s.phase = .rxLen) (ht : ParseOp s.task) :
    drive (n+3) s =
      if s.readBytes 1 = [] then endStep (lenStep s) else drive (n+2) (endStep (lenStep s)) := by
  rw [drive_more _ _ ht.run, tick, advance_rxLen _ ht.run hp]
  split
  · rename_i h
    apply drive_done; simp only [endStep_task, lenStep, h]
    exact raise_task _ _ (by simpa [EndsOnError] using ht.ends)
  · rfl

/-- R76. -/
theorem drive_start (n : Nat) (s : State) (hp : s.phase = .rxStart) (ht : ParseOp s.task) :
    drive (n+4) s =
      if s.readBytes 1 = [0x41] then drive (n+3) (endStep (startStep s)) else endStep (startStep s) := by
  rw [drive_more _ _ ht.run, tick, advance_rxStart _ ht.run hp]
  split
  · rfl
  · rename_i h
    apply drive_done; simp only [endStep_task, startStep]
    split
    · exact raise_task _ _ (by simpa [EndsOnError] using ht.ends)
    · split
      · exact raise_task _ _ (by simpa [EndsOnError] using ht.ends)
      · rename_i b _ _ hb
        exfalso
        rcases readBytes_one s with h' | ⟨c, h'⟩
        · simp_all
        · rw [h'] at h; simp_all [Config.startByte]

/-- R75. -/
theorem drive_ack (n : Nat) (s : State) (hp : s.phase = .rxAck) (ht : ParseOp s.task) :
    drive (n+5) s =
      if s.readBytes 1 = [0x06] then drive (n+4) (endStep (ackReceived (rxRead 1 s)))
      else if s.readBytes 1 = [0x15] then endStep (nakReceived (rxRead 1 s))
      else endStep (ackMissed (s.readBytes 1) (rxRead 1 s)) := by
  rw [drive_more _ _ ht.run, tick, advance_rxAck _ ht.run hp]
  split
  · rfl
  · split
    · apply drive_done; rw [endStep_task]; exact raise_task _ _ (by simpa [EndsOnError] using ht.ends)
    · apply drive_done; rw [endStep_task]; exact ackMissed_task _ _ (by simpa [EndsOnError] using ht.ends)

/-- A frame with the right checksum gives its payload (R79). -/
theorem checkFrame_good (s : State) (q : List Byte) (ck : Byte)
    (hd : s.declaredSize.toNat = q.length) (hb : s.rxbuf = q ++ [ck]) (hc : ck = checksum s.declaredSize q) :
    checkFrame s = parseReturn q { s with phase := .check, acc := ck } := by
  have hg : s.rxbuf[s.declaredSize.toNat]? = some ck := by simp [hd, hb]
  simp only [checkFrame, hg, State.rxPayload, ckRun_eq]
  simp only [hd, hb, List.take_left, ← hc, ne_eq, not_true, if_false]

end Sys2Proof.Machine
end

