-- ==== Sys2Proof/Tests/Slice0.lean ====
section
/-! SUPPORT. Tests of the model against the words and vectors of the spec (30_encoding.md, 95_test_vectors.md),
and for every statement with hypotheses a state and operands that meet all of them (test_hyp_…). -/

namespace Sys2Proof.Tests

open Sys2Proof Sys2Proof.Machine

set_option maxRecDepth 100000

/-! ### Helpers -/

/-- A draw that adds nothing and accepts everything. -/
def quiet : Draw := { arrive := [], accept := 300, portOk := true, late := [] }

/-- A draw in which the peer sends `l`. -/
def sends (l : List Byte) : Draw := { quiet with arrive := l }

/-- A draw in which the port accepts `c` bytes. -/
def takes (c : Nat) : Draw := { quiet with accept := c }

/-- The seven draws of a transaction answered by `reply`. -/
def transaction (reply : List Byte) : List Draw := [quiet, quiet, sends reply, quiet, quiet, quiet, quiet]

/-- The draws of a register access: its transaction and the echo check. -/
def answer (reply : List Byte) : List Draw := transaction reply ++ [quiet]

/-- The draws of a sweep's reading of one entry: its register access and the decoding. -/
def entry (reply : List Byte) : List Draw := transaction reply ++ [quiet, quiet]

/-- The fixture registry REG_F of 95_test_vectors.md section 2.11. -/
def regF : List SensorDef :=
  [{ name := "mode", addr := 0x2323, size := 1, kind := .unsignedInt 1 },
   { name := "t", addr := 0x0800, size := 2, kind := .scaledFloat 2 10 },
   { name := "offset", addr := 0x0801, size := 2, kind := .signedInt 2 }]

/-- An idle block with the link up (95_test_vectors.md, opening) and these draws to come. -/
def ready (script : List Draw) : State :=
  { State.reset with link := .ready, portHeld := true, script := script, registry := regF }

/-- An idle block with no port. -/
def shut (script : List Draw) : State := { State.reset with script := script, registry := regF }

/-- Inside OPEN's handshake, run on its own. -/
def waking (script : List Draw) : State :=
  { State.reset with link := .unestablished, portHeld := true, script := script, registry := regF }

/-- The instruction answers a next state of which `p` holds. -/
def yields (i : Instr) (s : State) (p : State → Bool) : Bool :=
  match exec i s with
  | .next t => p t
  | _ => false

/-- The instruction's result, run on its own, is `r`. -/
def gives (i : Instr) (s : State) (r : Result) : Bool := yields i s (fun t => decide (t.opResult = some r))

/-- The instruction ends with this error, and `err` holds it (R10). -/
def fails (i : Instr) (s : State) (e : Fail) : Bool :=
  yields i s (fun t => decide (t.opResult = some (.err { fail := e }) ∧ t.err = some { fail := e }))

/-! ### WellFormed: one ill-formed term for each check -/

theorem test_wf_size : sizeOk 0 = false ∧ sizeOk 5 = false ∧ sizeOk 1 = true ∧ sizeOk 4 = true := by decide

theorem test_wf_kind : Kind.wf (.signedInt 0) = false ∧ Kind.wf (.unsignedInt 5) = false ∧
    Kind.wf (.scaledFloat 5 10) = false ∧ Kind.wf (.scaledFloat 2 0) = false := by decide

theorem test_wf_sensor :
    SensorDef.wf { name := "a", addr := 0, size := 5, kind := .signedInt 5 } = false ∧
    SensorDef.wf { name := "a", addr := 0, size := 2, kind := .signedInt 1 } = false ∧
    SensorDef.wf { name := "a", addr := 0, size := 2, kind := .scaledFloat 2 0 } = false ∧
    SensorDef.wf { name := "mode_text", addr := 0, size := 1, kind := .unsignedInt 1 } = false := by decide

theorem test_wf_registry :
    registryWf regF = true ∧
    registryWf (regF ++ [{ name := "t", addr := 1, size := 1, kind := .signedInt 1 }]) = false ∧
    registryWf [{ name := "a", addr := 0, size := 0, kind := .signedInt 0 }] = false := by decide

theorem test_wf_values : Value.wf (.scaled 1 0) = false ∧ HostNum.wf (.ratio 1 0) = false ∧
    Field.wf (.num (.scaled 1 0)) = false := by decide

theorem test_wf_messages :
    Instr.wf (.reqFrame (List.replicate 101 0)) = false ∧
    Instr.wf (.respFrame (List.replicate 256 0) 0) = false ∧
    Instr.wf (.readReq 0 0) = false ∧ Instr.wf (.readReq 0 5) = false ∧
    Instr.wf (.readRsp 0 5 [0, 0, 0, 0, 0]) = false ∧ Instr.wf (.readRsp 0 2 [0]) = false ∧
    Instr.wf (.writeReq 0 (List.replicate 96 0)) = false ∧ Instr.wf (.writeRsp 0 96) = false := by decide

theorem test_wf_operations :
    Instr.wf (.writeValue "mode" (.ratio 1 0)) = false ∧ Instr.wf (.decode (.signedInt 2) [0]) = false ∧
    Instr.wf (.decodeSigned [0] 2) = false ∧ Instr.wf (.decodeUnsigned [] 0) = false ∧
    Instr.wf (.decodeScaled [0] 1 0) = false ∧ Instr.wf (.encodeUnsigned (.int 0) 0) = false ∧
    Instr.wf (.modeText (.scaled 0 0)) = false ∧ Instr.wf (.valveText (.scaled 0 0)) = false ∧
    Instr.wf (.addDerived [("a", .num (.int 0)), ("a", .num (.int 1))]) = false := by decide

/-! ### Decoding: words written out from 30_encoding.md -/

/-- R51: WAKE 00000100, WAKE_ACK 00000101, ACK and SYNC_ACK 00000110, NAK 00010101. -/
theorem test_decode_control :
    decode .wakeTx [0b00000100] = .instr .wake ∧ decode .wakeRx [0b00000101] = .instr .wakeAck ∧
    decode .syncRx [0b00000110] = .instr .syncAck ∧ decode .rxAck [0b00000110] = .instr .ack ∧
    decode .rxAck [0b00010101] = .instr .nak := by decide

/-- R51: SYNC 00010110 00000000 00000000. -/
theorem test_decode_sync : decode .syncTx [0b00010110, 0b00000000, 0b00000000] = .instr .sync := by decide

/-- R53, section 2.2 of 95_test_vectors.md: 41 01 41 42 and 41 00 00. -/
theorem test_decode_reqFrame : decode .txFrame [0b01000001, 0b00000001, 0b01000001, 0b01000010] =
    .instr (.reqFrame [0x41]) ∧ decode .txFrame [0x41, 0x00, 0x00] = .instr (.reqFrame []) := by decide

/-- R53: a response frame carries its checksum byte as received. -/
theorem test_decode_respFrame : decode .rxFrame [0b01000001, 0b00000000, 0b00000001] =
    .instr (.respFrame [] 0x01) := by decide

/-- R58: 00 01 AH AL SZ, the high address byte first. -/
theorem test_decode_readReq :
    decode .payload [0b00000000, 0b00000001, 0b00010010, 0b00110100, 0b00000100] =
      .instr (.readReq 0x1234 4) := by decide

/-- R59: 01 01 AH AL SZ data. -/
theorem test_decode_readRsp :
    decode .payload [0b00000001, 0b00000001, 0b00010010, 0b00110100, 0b00000001, 0b10000000] =
      .instr (.readRsp 0x1234 1 [0x80]) := by decide

/-- R60: 00 02 AH AL n data. -/
theorem test_decode_writeReq :
    decode .payload [0b00000000, 0b00000010, 0b01100011, 0b00000000, 0b00000010, 0b11111010, 0b00000000] =
      .instr (.writeReq 0x6300 [0xFA, 0x00]) := by decide

/-- R61: 01 02 AH AL n. -/
theorem test_decode_writeRsp :
    decode .payload [0b00000001, 0b00000010, 0b01100011, 0b00000000, 0b00000010] =
      .instr (.writeRsp 0x6300 2) := by decide

/-- R64: what no rule selects is rejected by name. -/
theorem test_decode_rejects :
    decode .wakeRx [0x06] = .reject (.notWakeAck 0x06) ∧ decode .rxAck [0x41] = .reject (.notAckNorNak 0x41) ∧
    decode .txFrame [0x41, 0x01, 0x41, 0x43] = .reject (.badChecksum 0x43 0x42) ∧
    decode .payload [0x01, 0x03, 0, 0, 0] = .reject (.noPayload 0x01 0x03) := by decide

/-- The opcode table's words (log 23, 24). -/
theorem test_decode_table :
    decodeTableWord 8 0x04 = some .wake ∧ decodeTableWord 8 0x05 = some .wakeAck ∧
    decodeTableWord 24 0x160000 = some .sync ∧ decodeTableWord 8 0x06 = some .ack ∧
    decodeTableWord 16 0x0015 = some .nak ∧ decodeTableWord 8 0x41 = some (.reqFrame []) ∧
    decodeTableWord 16 0x0001 = some (.readReq 0 0) ∧ decodeTableWord 16 0x0101 = some (.readRsp 0 0 []) ∧
    decodeTableWord 16 0x0002 = some (.writeReq 0 []) ∧ decodeTableWord 16 0x0102 = some (.writeRsp 0 0) ∧
    decodeTableWord 8 0x00 = none := by decide

/-- A placed word is the message that the next step fetches. -/
theorem test_fetch_word :
    (fetch (State.reset.withFetchWord 8 0x04)).instr = some .wake ∧
    (fetch (State.reset.withFetchWord 8 0x41)).instr = some (.reqFrame []) ∧
    (fetch (State.reset.withFetchWord 16 0x0001)).instr = some (.readReq 0 0) ∧
    (fetch (State.reset.withFetchWord 16 0x0102)).instr = some (.writeRsp 0 0) := by decide

/-! ### Messages -/

/-- R68: `TX 04`, one attempt counted. -/
theorem test_wake : yields .wake (waking [takes 0])
    (fun t => decide (t.wakeCount = 1 ∧ t.phase = .hsWakeRx ∧ t.trace = [.tx [0x04] 0])) = true := by decide

/-- R68, R69: on to the sync step. -/
theorem test_wakeAck : yields .wakeAck (waking []) (fun t => decide (t.phase = .hsSyncTx)) = true := by decide

/-- R69: `TX 16 00 00`. -/
theorem test_sync : yields .sync (waking [quiet])
    (fun t => decide (t.txLog = [0x16, 0x00, 0x00] ∧ t.phase = .hsSyncRx)) = true := by decide

/-- R69: the link is ready. -/
theorem test_syncAck : yields .syncAck { waking [] with task := .opening "x", phase := .hsSyncRx }
    (fun t => decide (t.link = .ready ∧ t.lastResult = some (.ok .unit) ∧ t.phase = .idle)) = true := by decide

/-- R75: on to the frame start. -/
theorem test_ack : yields .ack { ready [] with task := .parse }
    (fun t => decide (t.ackByte = 0x06 ∧ t.phase = .rxStart)) = true := by decide

/-- PR3, the last command: a NAK under WRITE_VALUE, code 0x22. -/
theorem test_nak : yields .nak { ready [] with task := .writing, phase := .rxAck }
    (fun t => decide (t.errCode = 0x22 ∧ t.phase = .idle ∧ t.link = .ready)) = true := by decide

/-- W11: the frame of a read request's payload. -/
theorem test_reqFrame : yields (.reqFrame [0x00, 0x01, 0x08, 0x00, 0x02]) (ready [quiet])
    (fun t => decide (t.txLog = [0x41, 0x05, 0x00, 0x01, 0x08, 0x00, 0x02, 0x10])) = true := by decide

/-- P-CK0: the checksum of an empty payload is 00. -/
theorem test_respFrame : fails (.respFrame [] 0x01) { ready [] with task := .parse }
    { kind := .checksumMismatch, got := some 0x01, expected := some 0x00 } = true := by decide

/-- Section 2.5: the request of `REG_READ(0xFFFF, 4)`. -/
theorem test_readReq : yields (.readReq 0xFFFF 4) (ready [quiet])
    (fun t => decide (t.txLog = [0x41, 0x05, 0x00, 0x01, 0xFF, 0xFF, 0x04, 0x08])) = true := by decide

/-- W7: an address echo that differs in its low byte. -/
theorem test_readRsp : fails (.readRsp 0x0801 2 [0xE4, 0x09])
    { ready [] with task := .regRead, reqAddr := 0x0800, reqSize := 2 }
    { kind := .invalidReadResponse } = true := by decide

/-- W11: the frame of a write request. -/
theorem test_writeReq : yields (.writeReq 0x2323 [0x01]) (ready [quiet])
    (fun t => decide (t.txLog = [0x41, 0x06, 0x00, 0x02, 0x23, 0x23, 0x01, 0x01, 0x50])) = true := by decide

/-- W8: byte 4 is 02 where 01 was written. -/
theorem test_writeRsp : fails (.writeRsp 0x2323 2)
    { ready [] with task := .regWrite, reqKind := .write, reqAddr := 0x2323, reqSize := 1 }
    { kind := .wrongSize, got := some 2, expected := some 1 } = true := by decide

/-! ### Host commands -/

/-- PR1: two failed attempts, then success. -/
theorem test_open : yields (.openCmd "/dev/ttyUSB0")
    (shut [quiet, quiet, quiet, quiet, quiet, sends [0x15], quiet, sends [0x05], quiet, sends [0x06]])
    (fun t => decide (t.link = .ready ∧ t.portHeld = true ∧ t.wakeCount = 3 ∧
      t.lastResult = some (.ok .unit) ∧ t.rxq = [])) = true := by decide

/-- S-POF. -/
theorem test_open_fails : yields (.openCmd "/dev/x") (shut [quiet, { quiet with portOk := false }])
    (fun t => decide (t.link = .closed ∧ t.errCode = 0x12 ∧ t.txLog = [])) = true := by decide

/-- PR2: the sweep of REG_F. -/
theorem test_getMeasurements : yields .getMeasurements (ready (quiet ::
     entry [0x06, 0x41, 0x06, 0x01, 0x01, 0x23, 0x23, 0x01, 0x02, 0x51] ++
     entry [0x06, 0x41, 0x07, 0x01, 0x01, 0x08, 0x00, 0x02, 0xE4, 0x09, 0x00] ++
     entry [0x06, 0x41, 0x07, 0x01, 0x01, 0x08, 0x01, 0x02, 0xCE, 0xFF, 0xE1]))
    (fun t => decide (t.lastResult = some (.ok (.map [("mode", .num (.int 2)), ("t", .num (.scaled 2532 10)),
        ("offset", .num (.int (-50))), ("mode_text", .text .heatingAndWarmWater)])) ∧
      t.acc = 0xE1 ∧ t.sweepIdx = 2)) = true := by decide

/-- S-NR1. -/
theorem test_getMeasurements_closed : yields .getMeasurements (shut [quiet])
    (fun t => decide (t.errCode = 0x45 ∧ t.txLog = [])) = true := by decide

/-- PR3, the first command: 1.9 is truncated to 1. -/
theorem test_writeValue : yields (.writeValue "mode" (.ratio 19 10))
    (ready (quiet :: answer [0x06, 0x41, 0x05, 0x01, 0x02, 0x23, 0x23, 0x01, 0x4F]))
    (fun t => decide (t.lastResult = some (.ok .unit) ∧
      t.txLog = [0x41, 0x06, 0x00, 0x02, 0x23, 0x23, 0x01, 0x01, 0x50])) = true := by decide

/-- S-NW1. -/
theorem test_writeValue_readOnly : yields (.writeValue "t" (.int 5)) (ready [quiet])
    (fun t => decide (t.lastResult = some (.err { fail := { kind := .notWritable, sensor := some "t" } }) ∧
      t.trace = [])) = true := by decide

/-- S-CL1. -/
theorem test_close : yields .closeCmd (ready [quiet, quiet])
    (fun t => decide (t.link = .closed ∧ t.portHeld = false ∧ t.trace = [.portClose])) = true := by decide

/-! ### Internal operations -/

/-- H-10: nine timeouts, then 05. -/
theorem test_handshake : yields .handshake
    (waking (List.replicate 19 quiet ++ [sends [0x05], quiet, sends [0x06]]))
    (fun t => decide (t.opResult = some (.ok .unit) ∧ t.wakeCount = 10)) = true := by decide

/-- H-DUP: the second 05 is read as the sync acknowledge. -/
theorem test_handshake_stale : fails .handshake (waking [quiet, sends [0x05, 0x05], quiet, quiet])
    { kind := .syncRejected, got := some 0x05, expected := some 0x06 } = true := by decide

/-- R73. -/
theorem test_ckClear : yields .ckClear { ready [] with acc := 0xFF } (fun t => decide (t.acc = 0)) = true := by
  decide

/-- R73: the sum wraps at 256. -/
theorem test_ckAdd : yields (.ckAdd 0x02) { ready [] with acc := 0xFF } (fun t => decide (t.acc = 1)) = true := by
  decide

/-- Section 2.1: 100 bytes of FF. -/
theorem test_ckRun : yields (.ckRun 100 (List.replicate 100 0xFF)) (ready [])
    (fun t => decide (t.acc = 0)) = true := by decide

/-- Section 2.2: the frame of a write of FA 00 to 0x6300. -/
theorem test_build : gives (.build [0x00, 0x02, 0x63, 0x00, 0x02, 0xFA, 0x00]) (ready [])
    (.ok (.bytes [0x41, 0x07, 0x00, 0x02, 0x63, 0x00, 0x02, 0xFA, 0x00, 0x68])) = true := by decide

/-- Section 2.2: 101 bytes are refused. -/
theorem test_build_long : fails (.build (List.replicate 101 0)) (ready [])
    { kind := .payloadTooLarge, got := some 101, expected := some 100 } = true := by decide

/-- P-EXTRA: what follows the frame stays in `rxq`. -/
theorem test_parse : yields .parse { ready [quiet, quiet, quiet, quiet, quiet] with
      rxq := [0x06, 0x41, 0x07, 0x01, 0x01, 0x08, 0x00, 0x02, 0xE4, 0x09, 0x00, 0x06] }
    (fun t => decide (t.opResult = some (.ok (.bytes [0x01, 0x01, 0x08, 0x00, 0x02, 0xE4, 0x09])) ∧
      t.rxq = [0x06])) = true := by decide

/-- P-SHORT. -/
theorem test_parse_short : fails .parse { ready [quiet, quiet, quiet, quiet, quiet] with
      rxq := [0x06, 0x41, 0x07, 0x01, 0x01, 0x08, 0x00, 0x02] }
    { kind := .frameTooShort, got := some 5, expected := some 8 } = true := by decide

/-- X-OK: stale bytes are flushed first. -/
theorem test_execute : yields (.execute [0x00, 0x01, 0x08, 0x00, 0x02]) { ready (answer
      [0x06, 0x41, 0x07, 0x01, 0x01, 0x08, 0x00, 0x02, 0xE4, 0x09, 0x00]) with rxq := [0xAA, 0xBB] }
    (fun t => decide (t.opResult = some (.ok (.bytes [0x01, 0x01, 0x08, 0x00, 0x02, 0xE4, 0x09])) ∧
      t.txLog = [0x41, 0x05, 0x00, 0x01, 0x08, 0x00, 0x02, 0x10])) = true := by decide

/-- X-PART: three bytes are accepted. -/
theorem test_execute_partial : yields (.execute [0x00, 0x01, 0x08, 0x00, 0x02]) (ready [quiet, takes 3])
    (fun t => decide (t.txLog = [0x41, 0x05, 0x00] ∧ t.opResult = some (.err { fail :=
      { kind := .writeIncomplete, got := some 3, expected := some 8 } }))) = true := by decide

/-- Section 2.5: `REG_READ(0xFFFF, 4)`. -/
theorem test_regRead : gives (.regRead 0xFFFF 4)
    (ready (answer [0x06, 0x41, 0x09, 0x01, 0x01, 0xFF, 0xFF, 0x04, 0xFF, 0xFF, 0xFF, 0x7F, 0x89]))
    (.ok (.bytes [0xFF, 0xFF, 0xFF, 0x7F])) = true := by decide

/-- W7: access type 02 in a read's reply. -/
theorem test_regRead_access : fails (.regRead 0x0800 2)
    (ready (answer [0x06, 0x41, 0x07, 0x01, 0x02, 0x08, 0x00, 0x02, 0xE4, 0x09, 0x01]))
    { kind := .invalidReadResponse } = true := by decide

/-- W3. -/
theorem test_readCheck : gives (.readCheck [0x01, 0x01, 0x08, 0x00, 0x02, 0xE4, 0x09])
    { ready [] with reqAddr := 0x0800, reqSize := 2 } (.ok .unit) = true := by decide

/-- Section 2.6: a write of no bytes. -/
theorem test_regWrite : gives (.regWrite 0x1234 [])
    (ready (answer [0x06, 0x41, 0x05, 0x01, 0x02, 0x12, 0x34, 0x00, 0x4E])) (.ok .unit) = true := by decide

/-- Section 2.6: address and type both wrong, the address first. -/
theorem test_regWrite_address : fails (.regWrite 0x2323 [0x01])
    (ready (answer [0x06, 0x41, 0x05, 0x00, 0x02, 0x23, 0x24, 0x01, 0x4F]))
    { kind := .wrongAddress, got := some 0x2324, expected := some 0x2323 } = true := by decide

/-- W8: one extra byte. -/
theorem test_writeCheck : fails (.writeCheck [0x01, 0x02, 0x23, 0x23, 0x01, 0x00])
    { ready [] with reqKind := .write, reqAddr := 0x2323, reqSize := 1 }
    { kind := .wrongLength, got := some 6, expected := some 5 } = true := by decide

/-- W5 through the kind. -/
theorem test_decode : gives (.decode (.scaledFloat 2 10) [0x29, 0x09]) (ready [])
    (.ok (.value (.scaled 2345 10))) = true := by decide

/-- Section 2.7, sizes 1 and 3. -/
theorem test_decodeSigned :
    gives (.decodeSigned [0x80] 1) (ready []) (.ok (.value (.int (-128)))) = true ∧
    gives (.decodeSigned [0x00, 0x00, 0x80] 3) (ready []) (.ok (.value (.int (-8388608)))) = true := by decide

/-- Section 2.7. -/
theorem test_decodeUnsigned : gives (.decodeUnsigned [0x00, 0x00, 0x00, 0x80] 4) (ready [])
    (.ok (.value (.int 2147483648))) = true := by decide

/-- W5: raw −50. -/
theorem test_decodeScaled : gives (.decodeScaled [0xCE, 0xFF] 2 10) (ready [])
    (.ok (.value (.scaled (-50) 10))) = true := by decide

/-- Section 2.8: 3.9 and −0.5 are truncated toward zero. -/
theorem test_encodeUnsigned :
    gives (.encodeUnsigned (.ratio 39 10) 1) (ready []) (.ok (.bytes [0x03])) = true ∧
    gives (.encodeUnsigned (.ratio (-1) 2) 1) (ready []) (.ok (.bytes [0x00])) = true := by decide

/-- Section 2.8: 256 does not fit one byte, nor is a value that is not finite encoded. -/
theorem test_encodeUnsigned_range :
    fails (.encodeUnsigned (.int 256) 1) (ready []) { kind := .valueOutOfRange } = true ∧
    fails (.encodeUnsigned .nonFinite 2) (ready []) { kind := .valueOutOfRange } = true := by decide

/-- Section 2.9. -/
theorem test_modeText :
    gives (.modeText (.scaled 10 10)) (ready []) (.ok (.text .warmWater)) = true ∧
    gives (.modeText (.int 3)) (ready []) (.ok (.text .unknown)) = true := by decide

/-- Section 2.9. -/
theorem test_valveText :
    gives (.valveText (.int 3)) (ready []) (.ok (.text .warmWater)) = true ∧
    gives (.valveText (.scaled 15 10)) (ready []) (.ok (.text .unknown)) = true := by decide

/-- R102: names are exact strings. -/
theorem test_lookup :
    gives (.lookup "t") (ready []) (.ok (.sensor
      (some { name := "t", addr := 0x0800, size := 2, kind := .scaledFloat 2 10 }))) = true ∧
    gives (.lookup "T") (ready []) (.ok (.sensor none)) = true := by decide

/-- R106's example. -/
theorem test_addDerived : gives (.addDerived [("mode", .num (.int 2))]) (ready [])
    (.ok (.map [("mode", .num (.int 2)), ("mode_text", .text .heatingAndWarmWater)])) = true := by decide

/-! ### Witnesses: for each statement with hypotheses, a state and operands that meet them -/

/-- Frames of 0, 100 and 255 bytes, reads of 1 and 4 bytes, writes of 95. -/
theorem test_hyp_DecodeInvertsEncode :
    Instr.wf (.reqFrame (List.replicate 100 0xFF)) = true ∧
    Instr.slot (.reqFrame (List.replicate 100 0xFF)) = some .txFrame ∧
    (encode (.reqFrame (List.replicate 100 0xFF))).isSome = true ∧
    Instr.wf (.respFrame (List.replicate 255 1) 0xFE) = true ∧ Instr.wf (.readReq 0xFFFF 4) = true ∧
    Instr.wf (.readRsp 0 1 [0xFF]) = true ∧ Instr.wf (.writeReq 0 (List.replicate 95 0)) = true ∧
    Instr.slot (.writeRsp 0 95) = some .payload ∧ encode .sync = some [0x16, 0x00, 0x00] := by decide

/-- A parse that waits for the frame start, with 41 before it, and with 06. -/
theorem test_hyp_ReceivedBytesSelected :
    (let s : State := { ready [quiet] with phase := .rxStart, task := .parse, rxq := [0x41] }
     s.phase = .rxStart ∧ s.task = .parse ∧ s.resetIn = [] ∧ s.readBytes 1 = [0x41]) ∧
    (let s : State := { ready [quiet] with phase := .rxStart, task := .parse, rxq := [0x06] }
     s.phase = .rxStart ∧ s.task = .parse ∧ s.resetIn = [] ∧ s.readBytes 1 ≠ [0x41]) ∧
    ({ ready [quiet] with phase := .rxStart, task := .parse } : State).readBytes 1 ≠ [0x41] := by decide

theorem test_hyp_EncodeInvertsDecode :
    decode .txFrame [0x41, 0x00, 0x00] = .instr (.reqFrame []) ∧ decode .rxAck [0x15] = .instr .nak ∧
    decode .payload [0x01, 0x02, 0xFF, 0xFF, 0x5F] = .instr (.writeRsp 0xFFFF 95) := by decide

/-- One state for each clause. -/
theorem test_hyp_StepRunsDecodedMessage :
    (∀ i ∈ [Instr.wake, .wakeAck, .sync, .syncAck, .ack, .respFrame [0x41] 0x42, .readReq 0x0800 2,
        .readRsp 0x0800 1 [7], .writeReq 0x2323 [1], .writeRsp 0x2323 1, .reqFrame [9]],
      (placeMessage i State.reset).resetIn = [] ∧ (placeMessage i State.reset).task ≠ .idle) ∧
    (placeMessage .wake State.reset).phase = .hsWakeTx ∧ (placeMessage .sync State.reset).phase = .hsSyncTx ∧
    (let s := placeMessage (.reqFrame [9]) State.reset
     s.phase = .txFrame ∧ decode .txFrame s.txbuf = .instr (.reqFrame [9])) ∧
    (let s := placeMessage (.readReq 0x0800 2) State.reset
     s.phase = .txFrame ∧ decode .txFrame s.txbuf = .instr (.reqFrame [0x00, 0x01, 0x08, 0x00, 0x02]) ∧
      decode .payload [0x00, 0x01, 0x08, 0x00, 0x02] = .instr (.readReq 0x0800 2)) ∧
    (let s := placeMessage (.writeReq 0x2323 [1]) State.reset
     s.phase = .txFrame ∧ decode .txFrame s.txbuf = .instr (.reqFrame [0x00, 0x02, 0x23, 0x23, 0x01, 0x01]) ∧
      decode .payload [0x00, 0x02, 0x23, 0x23, 0x01, 0x01] = .instr (.writeReq 0x2323 [1])) ∧
    (let s := placeMessage .wakeAck State.reset
     s.phase = .hsWakeRx ∧ decode .wakeRx (s.readBytes 1) = .instr .wakeAck) ∧
    (let s := placeMessage .syncAck State.reset
     s.phase = .hsSyncRx ∧ decode .syncRx (s.readBytes 1) = .instr .syncAck) ∧
    (let s := placeMessage .ack State.reset
     s.phase = .rxAck ∧ decode .rxAck (s.readBytes 1) = .instr .ack) ∧
    (let s := placeMessage (.respFrame [0x41] 0x42) State.reset
     s.phase = .check ∧ s.rsp = none ∧
      decode .rxFrame (s.startByte :: s.declaredSize :: s.rxbuf) = .instr (.respFrame [0x41] 0x42)) ∧
    (let s := placeMessage (.readRsp 0x0800 1 [7]) State.reset
     s.phase = .check ∧ s.rsp = some [0x01, 0x01, 0x08, 0x00, 0x01, 7] ∧
      decode .payload [0x01, 0x01, 0x08, 0x00, 0x01, 7] = .instr (.readRsp 0x0800 1 [7])) ∧
    (let s := placeMessage (.writeRsp 0x2323 1) State.reset
     s.phase = .check ∧ s.rsp = some [0x01, 0x02, 0x23, 0x23, 0x01] ∧
      decode .payload [0x01, 0x02, 0x23, 0x23, 0x01] = .instr (.writeRsp 0x2323 1)) := by decide

theorem test_hyp_ResetInputAbandons :
    ({ ready [] with resetIn := [0, 5], phase := .rxAck } : State).resetIn = 0 :: [5] ∧
    ({ ready [] with resetIn := [1] } : State).resetIn = (0 + 1) :: [] := by decide

theorem test_hyp_ResetLeaves : (ready []).phase = .idle ∧ (ready []).hostq = [] ∧ (ready []).resetIn = [] := by
  decide

theorem test_hyp_CommandRunsStepByStep : (ready []).phase = .idle ∧ (ready []).resetIn = [] := by decide

theorem test_hyp_BusyCommandHasNoMove : ({ ready [] with phase := .decode } : State).busy = true := by decide

/-- The tenth attempt is made, the eleventh is not. -/
theorem test_hyp_WakeAttempt :
    ({ waking [] with wakeCount := 9 } : State).wakeCount < 10 ∧
    (let s : State := { waking [] with wakeCount := 10, task := .handshake }
     10 ≤ s.wakeCount ∧ s.task = .handshake) ∧
    (let s : State := { waking [] with wakeCount := 10, task := .opening "x" }
     10 ≤ s.wakeCount ∧ s.task = .opening "x") := by decide

theorem test_hyp_SyncAckMakesReady :
    ({ waking [] with task := .opening "x" } : State).task = .opening "x" ∧
    ({ waking [] with task := .handshake } : State).task = .handshake := by decide

/-- Nine failed attempts: eight timeouts and a 06. -/
def nine : List (Draw × Draw) := List.replicate 8 (quiet, quiet) ++ [(quiet, sends [0x06])]

theorem test_failedAttempts : ∀ a ∈ nine, failedAttempt a := by
  intro a h
  simp only [nine, List.mem_append, List.mem_replicate, List.mem_singleton] at h
  rcases h with ⟨_, rfl⟩ | rfl
  · exact ⟨⟨rfl, rfl⟩, .inl ⟨rfl, rfl⟩⟩
  · exact ⟨⟨rfl, rfl⟩, .inr ⟨0x06, by decide, rfl, rfl⟩⟩

theorem test_failedTen : ∀ a ∈ (quiet, quiet) :: nine, failedAttempt a := by
  intro a h
  rcases List.mem_cons.1 h with rfl | h
  · exact ⟨⟨rfl, rfl⟩, .inl ⟨rfl, rfl⟩⟩
  · exact test_failedAttempts a h

/-- A quiet draw appends nothing, a sending one its bytes. -/
theorem test_quiet : quiet.brings [] := ⟨rfl, rfl⟩

theorem test_sends (l : List Byte) : (sends l).brings l := ⟨rfl, rfl⟩

theorem test_transaction (len : Nat) (reply : List Byte) (h : len ≤ 300) :
    answers len reply (transaction reply) :=
  ⟨quiet, quiet, sends reply, quiet, quiet, quiet, quiet, rfl, rfl, h, test_quiet, test_sends reply, test_quiet,
    test_quiet, test_quiet⟩

/-- An answer on the tenth attempt, and on the first. -/
theorem test_hyp_HandshakeSucceeds :
    (∃ s : State, s.rxq = [] ∧ nine.length < 10 ∧ (∀ a ∈ nine, failedAttempt a) ∧
      quiet.brings [] ∧ (sends [0x05]).brings [0x05] ∧ (sends [0x06]).arrive = [0x06] ∧
      s.script = attemptDraws nine ++ [quiet, sends [0x05], quiet, sends [0x06]] ++ []) ∧
    (waking [quiet, sends [0x05], quiet, sends [0x06]]).script =
      attemptDraws [] ++ [quiet, sends [0x05], quiet, sends [0x06]] ++ [] :=
  ⟨⟨waking (attemptDraws nine ++ [quiet, sends [0x05], quiet, sends [0x06]] ++ []), rfl, by decide,
    test_failedAttempts, test_quiet, test_sends _, rfl, rfl⟩, rfl⟩

theorem test_hyp_HandshakeExhausted : ∃ s : State, s.rxq = [] ∧ ((quiet, quiet) :: nine).length = 10 ∧
    (∀ a ∈ (quiet, quiet) :: nine, failedAttempt a) ∧
    s.script = attemptDraws ((quiet, quiet) :: nine) ++ [] :=
  ⟨waking (attemptDraws ((quiet, quiet) :: nine) ++ []), rfl, by decide, test_failedTen, rfl⟩

/-- The sync is answered by nothing, and by 15. -/
theorem test_hyp_SyncRejectedOnce : ∃ s : State, s.rxq = [] ∧ nine.length < 10 ∧
    (∀ a ∈ nine, failedAttempt a) ∧ quiet.brings [] ∧ (sends [0x05]).brings [0x05] ∧
    (quiet.arrive = [] ∨ ∃ b : Byte, b ≠ 0x06 ∧ quiet.arrive = [b]) ∧
    ((sends [0x15]).arrive = [] ∨ ∃ b : Byte, b ≠ 0x06 ∧ (sends [0x15]).arrive = [b]) ∧
    s.script = attemptDraws nine ++ [quiet, sends [0x05], quiet, sends [0x15]] ++ [] :=
  ⟨waking (attemptDraws nine ++ [quiet, sends [0x05], quiet, sends [0x15]] ++ []), rfl, by decide,
    test_failedAttempts, test_quiet, test_sends _, .inl rfl, .inr ⟨0x15, by decide, rfl⟩, rfl⟩

theorem test_hyp_BuildMakesFrame : (List.replicate 100 (0xFF : Byte)).length ≤ 100 ∧
    100 < (List.replicate 101 (0xFF : Byte)).length := by decide

/-- The three forms, with a port that accepts exactly the frame. -/
theorem test_hyp_RequestFrameTransmitted :
    (Instr.readReq 0x0800 2 = .readReq 0x0800 2 ∧
      [0x00, 0x01, hi 0x0800, lo 0x0800, 0x02] = ([0x00, 0x01, 0x08, 0x00, 0x02] : List Byte) ∧
      5 + 3 ≤ (ready [takes 8]).nextDraw.accept) ∧
    (let p : List Byte := [0x00, 0x02, hi 0x2323, lo 0x2323, BitVec.ofNat 8 95] ++ List.replicate 95 0
     p.length ≤ 100 ∧ p.length + 3 ≤ (ready [takes 103]).nextDraw.accept) ∧
    (([] : List Byte).length + 3 ≤ (ready [takes 3]).nextDraw.accept) := by decide

theorem test_hyp_PartialFrameIncomplete :
    (List.replicate 100 (0 : Byte)).length ≤ 100 ∧
    (ready [quiet, takes 102]).afterDraw.nextDraw.accept < (List.replicate 100 (0 : Byte)).length + 3 ∧
    (ready [quiet, takes 0]).afterDraw.nextDraw.accept < ([] : List Byte).length + 3 := by decide

theorem test_hyp_AckOrNakRecognised : ({ ready [] with task := .regWrite } : State).task = .regWrite ∧
    ({ ready [] with task := .execute [] } : State).task = .execute [] := by decide

/-- WRITE_VALUE, and the last entry of a sweep. -/
theorem test_hyp_ErrorEndsCommand :
    ({ ready [] with task := .writing } : State).task = .writing ∧
    (let s : State := { ready [] with task := .sweeping, sweepIdx := 2 }
     s.task = .sweeping ∧ s.registry[s.sweepIdx]? =
       some { name := "offset", addr := 0x0801, size := 2, kind := .signedInt 2 }) := by decide

/-- 255 bytes of 01: the checksum is FE, and FF is wrong; each task of the clauses. -/
theorem test_hyp_ResponseFrameChecked :
    (List.replicate 255 (1 : Byte)).length ≤ 255 ∧
    (0xFE : Byte).toNat = ((List.replicate 255 (1 : Byte)).length +
      ((List.replicate 255 (1 : Byte)).map BitVec.toNat).sum) % 256 ∧ (0xFF : Byte) ≠ 0xFE ∧
    ({ ready [] with task := .parse } : State).task = .parse ∧
    ({ ready [] with task := .regRead } : State).task = .regRead ∧
    ({ ready [] with task := .writing } : State).task = .writing ∧
    (let s : State := { ready [] with task := .sweeping, sweepIdx := 2 }
     s.task = .sweeping ∧ s.registry[s.sweepIdx]? =
       some { name := "offset", addr := 0x0801, size := 2, kind := .signedInt 2 }) := by decide

/-- Five quiet draws and, clause by clause, contents of `rxq` that meet it. -/
theorem test_hyp_ParseClassifies :
    (ready [quiet, quiet, quiet, quiet, quiet]).script = quiet :: quiet :: quiet :: quiet :: quiet :: [] ∧
    (quiet.arrive = [] ∧ quiet.late = []) ∧
    (ready []).rxq = [] ∧
    ({ ready [] with rxq := [0x15, 0x41] } : State).rxq = 0x15 :: [0x41] ∧
    ({ ready [] with rxq := [0x41] } : State).rxq = 0x41 :: [] ∧ (0x41 : Byte) ≠ 0x06 ∧ (0x41 : Byte) ≠ 0x15 ∧
    ({ ready [] with rxq := [0x06] } : State).rxq = [0x06] ∧
    ({ ready [] with rxq := [0x06, 0x06] } : State).rxq = 0x06 :: 0x06 :: [] ∧ (0x06 : Byte) ≠ 0x41 ∧
    ({ ready [] with rxq := [0x06, 0x41] } : State).rxq = [0x06, 0x41] ∧
    ({ ready [] with rxq := [0x06, 0x41, 0x00] } : State).rxq = 0x06 :: 0x41 :: 0x00 :: [] ∧
    ([] : List Byte).length < (0x00 : Byte).toNat + 1 ∧
    ({ ready [] with rxq := [0x06, 0x41, 0x01, 0x41, 0x42, 0x06] } : State).rxq =
      0x06 :: 0x41 :: 0x01 :: ([0x41] ++ 0x42 :: [0x06]) ∧
    ([0x41] : List Byte).length = (0x01 : Byte).toNat ∧
    (0x42 : Byte).toNat = (([0x41] : List Byte).length + (([0x41] : List Byte).map BitVec.toNat).sum) % 256 := by
  decide

theorem test_hyp_ParseInvertsBuild : ([] : List Byte).length ≤ 100 ∧
    gives (.build []) (ready []) (.ok (.bytes [0x41, 0x00, 0x00])) = true ∧
    ({ ready [] with rxq := [0x06, 0x41, 0x00, 0x00, 0x06] } : State).rxq =
      0x06 :: [0x41, 0x00, 0x00] ++ [0x06] := by decide

/-- An answered transaction: request and response of the largest sizes. -/
theorem test_hyp_ExecuteReturnsPayload : ∃ (s : State) (ds : List Draw),
    (List.replicate 100 (0 : Byte)).length ≤ 100 ∧ (List.replicate 255 (1 : Byte)).length ≤ 255 ∧
    s.script = ds ++ [] ∧ answers ((List.replicate 100 (0 : Byte)).length + 3)
      (0x06 :: frameOf (List.replicate 255 1)) ds :=
  ⟨ready (transaction (0x06 :: frameOf (List.replicate 255 1))), _, by decide, by decide,
    by rw [List.append_nil]; rfl, test_transaction _ _ (by decide)⟩

theorem test_hyp_LongPayloadFlushesOnly : 100 < (List.replicate 101 (0 : Byte)).length ∧
    95 < (List.replicate 96 (0 : Byte)).length ∧ (List.replicate 96 (0 : Byte)).length ≤ 255 ∧
    95 < (List.replicate 256 (0 : Byte)).length := by decide

/-- Two states that differ in what earlier transactions left. -/
theorem test_hyp_ExecuteKeepsNoState :
    ({ ready [quiet] with rxq := [0xAA], acc := 7, txbuf := [1] } : State).script = (shut [quiet]).script ∧
    ({ ready [quiet] with rxq := [0xAA], acc := 7, txbuf := [1] } : State).draws = (shut [quiet]).draws := by decide

theorem test_hyp_TransactionFrames :
    (∃ t, exec .parse (ready []) = .next t) ∧ (∃ t, exec (.execute [1]) (ready []) = .next t) ∧
    (∃ t, exec (.regRead 0x0800 2) (ready []) = .next t) ∧
    ∃ t, exec (.regWrite 0x2323 [1]) (ready []) = .next t :=
  ⟨⟨_, rfl⟩, ⟨_, rfl⟩, ⟨_, rfl⟩, ⟨_, rfl⟩⟩

/-- An answered read of four bytes. -/
theorem test_hyp_RegReadReturnsData : ∃ (s : State) (ds : List Draw), 1 ≤ ([1, 2, 3, 4] : List Byte).length ∧
    ([1, 2, 3, 4] : List Byte).length ≤ 4 ∧ s.script = ds ++ quiet :: [] ∧
    answers 8 (0x06 :: frameOf ([0x01, 0x01, hi 0xFFFF, lo 0xFFFF,
      BitVec.ofNat 8 ([1, 2, 3, 4] : List Byte).length] ++ [1, 2, 3, 4])) ds :=
  ⟨ready (answer (0x06 :: frameOf [0x01, 0x01, 0xFF, 0xFF, 4, 1, 2, 3, 4])), _, by decide, by decide, rfl,
    test_transaction _ _ (by decide)⟩

theorem test_hyp_RegReadSizeChecked : ((0 : Int) < 1 ∨ (4 : Int) < 0) ∧ ((5 : Int) < 1 ∨ (4 : Int) < 5) := by decide

/-- The echo of a two-byte read, and a reply of five bytes that is none. -/
theorem test_hyp_ReadCheckExact :
    (let s : State := { ready [] with reqAddr := 0x0800, reqSize := 2 }
     ([0xE4, 0x09] : List Byte).length = s.reqSize.toNat ∧
      ([0x01, 0x01, 0x08, 0x00, 0x02, 0xE4, 0x09] : List Byte) =
        [0x01, 0x01, hi s.reqAddr, lo s.reqAddr, s.reqSize] ++ [0xE4, 0x09]) ∧
    ¬ ∃ data : List Byte, data.length = ({ ready [] with reqSize := 2 } : State).reqSize.toNat ∧
      ([] : List Byte) = [0x01, 0x01, 0, 0, 2] ++ data :=
  ⟨by decide, by rintro ⟨d, -, h⟩; simp at h⟩

/-- An answered write of 95 bytes, the longest. -/
theorem test_hyp_RegWriteCompletes : ∃ (s : State) (ds : List Draw), (List.replicate 95 (0 : Byte)).length ≤ 95 ∧
    s.script = ds ++ quiet :: [] ∧ answers ((List.replicate 95 (0 : Byte)).length + 8)
      (0x06 :: frameOf [0x01, 0x02, hi 0x2323, lo 0x2323,
        BitVec.ofNat 8 (List.replicate 95 (0 : Byte)).length]) ds :=
  ⟨ready (answer (0x06 :: frameOf [0x01, 0x02, 0x23, 0x23, 95])), _, by decide, rfl,
    test_transaction _ _ (by decide)⟩

/-- One reply for each clause, to a write of one byte to 0x2323. -/
theorem test_hyp_WriteCheckPriority :
    (let s : State := { ready [] with reqKind := .write, reqAddr := 0x2323, reqSize := 1 }
     ([1, 2, 3, 4, 5, 6] : List Byte).length ≠ 5 ∧ ([] : List Byte).length ≠ 5 ∧
     (0x23 : Byte).toNat * 256 + (0x24 : Byte).toNat ≠ s.reqAddr.toNat ∧
     (0x23 : Byte).toNat * 256 + (0x23 : Byte).toNat = s.reqAddr.toNat ∧ (0x00 : Byte) ≠ 0x01 ∧
     (0x01 : Byte) ≠ 0x02 ∧ (0x02 : Byte) ≠ s.reqSize ∧ (0x01 : Byte) = s.reqSize) := by decide

theorem test_hyp_ReplyMessagesChecked :
    (let s : State := { ready [] with task := .regRead }
     s.task = .regRead ∧ s.reqKind = .read) ∧
    (let s : State := { ready [] with task := .regWrite, reqKind := .write }
     s.task = .regWrite ∧ s.reqKind = .write ∧ ([7] : List Byte) ≠ []) := by decide

/-- One byte 80, and four bytes 00 00 00 80: −128 and −2147483648. -/
theorem test_hyp_DecodersComputeValues :
    (([0x80] : List Byte).length = 1 ∧
      (128 : Int) = ((∑ i ∈ Finset.range 1, (([0x80] : List Byte).getD i 0).toNat * 256 ^ i : Nat) : Int) ∧
      (-128 : Int) = (if (([0x80] : List Byte).getD (1 - 1) 0).toNat < 128 then 128 else 128 - 2 ^ (8 * 1))) ∧
    (([0x00, 0x00, 0x00, 0x80] : List Byte).length = 4 ∧
      (2147483648 : Int) = ((∑ i ∈ Finset.range 4,
        (([0x00, 0x00, 0x00, 0x80] : List Byte).getD i 0).toNat * 256 ^ i : Nat) : Int) ∧
      (-2147483648 : Int) = (if (([0x00, 0x00, 0x00, 0x80] : List Byte).getD (4 - 1) 0).toNat < 128
        then 2147483648 else 2147483648 - 2 ^ (8 * 4))) := by decide

/-- 255, 256 and −1 at size 1; −1/2, whose truncation is 0; a value that is not finite. -/
theorem test_hyp_EncoderTruncatesAndBounds :
    (HostNum.int 255 = .int 255 ∧ (0 : Int) ≤ 255 ∧ (255 : Int) < 2 ^ (8 * 1)) ∧
    ((256 : Int) < 0 ∨ (2 : Int) ^ (8 * 1) ≤ 256) ∧ ((-1 : Int) < 0 ∨ (2 : Int) ^ (8 * 1) ≤ -1) ∧
    (HostNum.int 256).truncatesTo 256 ∧ (HostNum.ratio (-1) 2).truncatesTo 0 ∧
    HostNum.nonFinite = .nonFinite :=
  ⟨by decide, by decide, by decide, .inl rfl, .inr ⟨-1, 2, by decide, rfl, by decide⟩, rfl⟩

theorem test_hyp_UnsignedCodecInverse : ((0 : Int) ≤ 4294967295 ∧ (4294967295 : Int) ≤ 2 ^ (8 * 4) - 1) ∧
    ((0 : Int) ≤ 0 ∧ (0 : Int) ≤ 2 ^ (8 * 1) - 1) ∧ ([0xE4, 0x09] : List Byte).length = 2 := by decide

/-- 1 as 10/10, and 15/10, which is no integer. -/
theorem test_hyp_TextTables :
    (∃ d : Nat, 0 < d ∧ Value.scaled 10 10 = .scaled (1 * (d : Int)) d) ∧
    (0 < 10 ∧ ¬ ((10 : Nat) : Int) ∣ 15 ∧ Value.scaled 15 10 = .scaled 15 10) :=
  ⟨⟨10, by decide, rfl⟩, by decide, by decide, rfl⟩

theorem test_hyp_LookupFindsByName : uniqueNames ((ready []).registry.map SensorDef.name) = true ∧
    (∃ d ∈ (ready []).registry, d.name = "offset") ∧ (∀ d ∈ (ready []).registry, d.name ≠ "pump") := by decide

theorem test_hyp_DerivedTextsAdded :
    mapGet [("mode", .num (.int 2))] "mode" = some (.num (.int 2)) ∧ mapGet [] "mode" = none ∧
    mapGet [("three_way_valve_pos", .num (.int 3))] "three_way_valve_pos" = some (.num (.int 3)) ∧
    "t" ≠ "mode_text" ∧ "t" ≠ "three_way_valve_pos_text" := by decide

theorem test_hyp_WrongLinkStateNotReady :
    (ready []).phase = .idle ∧ (ready []).link ≠ .closed ∧ (shut []).phase = .idle ∧ (shut []).link ≠ .ready := by
  decide

theorem test_hyp_OpenEstablishesLink : ∃ s : State, s.phase = .idle ∧ s.link = .closed ∧ quiet.portOk = true ∧
    quiet.late = [] ∧ nine.length < 10 ∧ (∀ a ∈ nine, failedAttempt a) ∧ quiet.brings [] ∧
    (sends [0x05]).brings [0x05] ∧ (sends [0x06]).arrive = [0x06] ∧
    s.script = quiet :: quiet :: attemptDraws nine ++ [quiet, sends [0x05], quiet, sends [0x06]] ++ [] :=
  ⟨shut (quiet :: quiet :: attemptDraws nine ++ [quiet, sends [0x05], quiet, sends [0x06]] ++ []), rfl, rfl, rfl,
    rfl, by decide, test_failedAttempts, test_quiet, test_sends _, rfl, rfl⟩

theorem test_hyp_OpenPortRefused : (shut [quiet, { quiet with portOk := false }]).phase = .idle ∧
    (shut [quiet, { quiet with portOk := false }]).link = .closed ∧
    (endStep (shut [quiet, { quiet with portOk := false }])).nextDraw.portOk = false := by decide

/-- Ten attempts without an answer; nine, an answer, and a sync answered by 15. -/
theorem test_hyp_FailedOpenReleasesPort :
    (∃ s : State, s.phase = .idle ∧ s.link = .closed ∧ quiet.portOk = true ∧ quiet.late = [] ∧
      ((quiet, quiet) :: nine).length = 10 ∧ (∀ a ∈ (quiet, quiet) :: nine, failedAttempt a) ∧
      s.script = quiet :: quiet :: attemptDraws ((quiet, quiet) :: nine) ++ [] ++ quiet :: []) ∧
    ∃ s : State, s.phase = .idle ∧ s.link = .closed ∧ nine.length < 10 ∧ (∀ a ∈ nine, failedAttempt a) ∧
      quiet.brings [] ∧ (sends [0x05]).brings [0x05] ∧
      ((sends [0x15]).arrive = [] ∨ ∃ b : Byte, b ≠ 0x06 ∧ (sends [0x15]).arrive = [b]) ∧
      s.script = quiet :: quiet :: attemptDraws nine ++ [quiet, sends [0x05], quiet, sends [0x15]] ++ quiet :: [] :=
  ⟨⟨shut (quiet :: quiet :: attemptDraws ((quiet, quiet) :: nine) ++ [] ++ quiet :: []), rfl, rfl, rfl, rfl,
      by decide, test_failedTen, rfl⟩,
    shut (quiet :: quiet :: attemptDraws nine ++ [quiet, sends [0x05], quiet, sends [0x15]] ++ quiet :: []), rfl,
    rfl, by decide, test_failedAttempts, test_quiet, test_sends _, .inr ⟨0x15, by decide, rfl⟩, rfl⟩

/-- The three answers of PR2 to a sweep of REG_F. -/
def sweepAnswers : List (List Byte × List Draw) :=
  [([0x02], entry [0x06, 0x41, 0x06, 0x01, 0x01, 0x23, 0x23, 0x01, 0x02, 0x51]),
   ([0xE4, 0x09], entry [0x06, 0x41, 0x07, 0x01, 0x01, 0x08, 0x00, 0x02, 0xE4, 0x09, 0x00]),
   ([0xCE, 0xFF], entry [0x06, 0x41, 0x07, 0x01, 0x01, 0x08, 0x01, 0x02, 0xCE, 0xFF, 0xE1])]

theorem test_entry (reply : List Byte) : answersEntry reply (entry reply) :=
  ⟨_, quiet, quiet, rfl, test_transaction 8 reply (by decide)⟩

theorem test_sweepAnswers : List.Forall₂ (fun (d : SensorDef) (x : List Byte × List Draw) => x.1.length = d.size ∧
    answersEntry (0x06 :: frameOf (readRspPayload d.addr (byteOfNat d.size) x.1)) x.2) regF sweepAnswers :=
  .cons ⟨rfl, test_entry _⟩ (.cons ⟨rfl, test_entry _⟩ (.cons ⟨rfl, test_entry _⟩ .nil))

theorem test_hyp_SweepReturnsMap : ∃ s : State, s.phase = .idle ∧ s.link = .ready ∧
    registryWf s.registry = true ∧ s.registry = regF ∧ s.registry ≠ [] ∧
    s.script = quiet :: sweepAnswers.flatMap Prod.snd ++ [] :=
  ⟨ready (quiet :: sweepAnswers.flatMap Prod.snd ++ []), rfl, rfl, by decide, rfl, by decide, rfl⟩

/-- The second entry's read, in what is left of an environment. -/
def secondRead (rest : List Draw) : Option (Option Result × List Event) :=
  match exec (.regRead 0x0800 2) { ready rest with draws := State.reset.draws } with
  | .next v => some (v.opResult, v.trace)
  | _ => none

/-- The second entry is answered by a NAK, and by a reply whose checksum is wrong (PR4). -/
theorem test_hyp_SweepStopsAtFailure :
    (∃ s : State, s.phase = .idle ∧ s.link = .ready ∧ registryWf s.registry = true ∧
      s.registry = regF.take 1 ++
        { name := "t", addr := 0x0800, size := 2, kind := .scaledFloat 2 10 } :: regF.drop 2 ∧
      List.Forall₂ (fun (d : SensorDef) (x : List Byte × List Draw) => x.1.length = d.size ∧
        answersEntry (0x06 :: frameOf (readRspPayload d.addr (byteOfNat d.size) x.1)) x.2)
        (regF.take 1) (sweepAnswers.take 1) ∧
      s.script = quiet :: (sweepAnswers.take 1).flatMap Prod.snd ++ [quiet, quiet, sends [0x15]]) ∧
    secondRead [quiet, quiet, sends [0x15]] =
      some (some (.err { fail := { kind := .nakReceived, got := some 0x15, expected := some 0x06 } }),
        [.flush, .tx [0x41, 0x05, 0x00, 0x01, 0x08, 0x00, 0x02, 0x10] 8, .rx 1 [0x15]]) ∧
    (secondRead (transaction [0x06, 0x41, 0x07, 0x01, 0x01, 0x08, 0x00, 0x02, 0xE4, 0x09, 0x01])).map Prod.fst =
      some (some (.err { fail := { kind := .checksumMismatch, got := some 0x01, expected := some 0x00 } })) :=
  ⟨⟨ready (quiet :: (sweepAnswers.take 1).flatMap Prod.snd ++ [quiet, quiet, sends [0x15]]), rfl, rfl, by decide,
    rfl, .cons ⟨rfl, test_entry _⟩ .nil, rfl⟩, by decide, by decide⟩

/-- "pump" is unknown, "t" is read-only, 256 and 513/2 do not fit "mode". -/
theorem test_hyp_WriteValueChecksFirst :
    (ready []).phase = .idle ∧ (ready []).link = .ready ∧ lookupName (ready []).registry "pump" = none ∧
    (∃ d, lookupName (ready []).registry "t" = some d ∧ ∀ n, d.kind ≠ .unsignedInt n) ∧
    (∃ d, lookupName (ready []).registry "mode" = some d ∧ (∃ n, d.kind = .unsignedInt n) ∧
      1 ≤ d.size ∧ d.size ≤ 4 ∧ (∃ t, (HostNum.int 256).truncatesTo t ∧ (t < 0 ∨ 2 ^ (8 * d.size) ≤ t)) ∧
      (∃ t, (HostNum.ratio 513 2).truncatesTo t ∧ (t < 0 ∨ 2 ^ (8 * d.size) ≤ t))) :=
  ⟨rfl, rfl, by decide, ⟨_, rfl, fun n h => by cases h⟩,
    ⟨_, rfl, ⟨1, rfl⟩, by decide, by decide, ⟨256, .inl rfl, .inr (by decide)⟩,
      256, .inr ⟨513, 2, by decide, rfl, by decide⟩, .inr (by decide)⟩⟩

/-- PR3's first write, with the largest value, as an integer and as 511/2. -/
theorem test_hyp_WriteValueCompletes : ∃ (s : State) (d : SensorDef) (ds : List Draw),
    s.phase = .idle ∧ s.link = .ready ∧ lookupName s.registry "mode" = some d ∧ d.wf = true ∧
    d.kind = .unsignedInt 1 ∧ (HostNum.int 255).truncatesTo 255 ∧ (HostNum.ratio 511 2).truncatesTo 255 ∧
    (0 : Int) ≤ 255 ∧ (255 : Int) < 2 ^ (8 * d.size) ∧ ([0xFF] : List Byte).length = d.size ∧
    (∀ i < d.size, ([0xFF] : List Byte).getD i 0 = BitVec.ofNat 8 ((255 : Int).toNat / 256 ^ i)) ∧
    s.script = quiet :: ds ++ quiet :: [] ∧
    answers (d.size + 8) (0x06 :: frameOf [0x01, 0x02, hi d.addr, lo d.addr, BitVec.ofNat 8 d.size]) ds :=
  ⟨ready (quiet :: answer [0x06, 0x41, 0x05, 0x01, 0x02, 0x23, 0x23, 0x01, 0x4F]),
    { name := "mode", addr := 0x2323, size := 1, kind := .unsignedInt 1 }, _, rfl, rfl, by decide, by decide, rfl,
    .inl rfl, .inr ⟨511, 2, by decide, rfl, by decide⟩, by decide, by decide, rfl, by decide, rfl,
    test_transaction _ _ (by decide)⟩

theorem test_hyp_CloseReleasesPort : (ready []).phase = .idle ∧ (ready []).link ≠ .closed ∧
    (shut []).phase = .idle ∧ (shut []).link = .closed := by decide

theorem test_hyp_CommandsEndWithinBounds : (shut []).phase = .idle ∧ (ready []).phase = .idle := by decide

theorem test_hyp_CommandFrames : (∃ t, exec (HostCmd.instr (.openCmd "x")) (shut []) = .next t) ∧
    (∃ t, exec (HostCmd.instr .getMeasurements) (ready []) = .next t) ∧
    ∃ t, exec (HostCmd.instr (.writeValue "mode" (.int 1))) (ready []) = .next t :=
  ⟨⟨_, rfl⟩, ⟨_, rfl⟩, ⟨_, rfl⟩⟩

theorem test_hyp_ErrorCodeTable : State.reset.err = none ∧
    ({ ready [] with err := some { fail := { kind := .sensorReadError } } } : State).err =
      some { fail := { kind := .sensorReadError } } := by decide

theorem test_hyp_RegistryNeverWritten : (∃ t, exec .wake (waking []) = .next t) ∧
    ∃ t, step { ready [quiet] with resetIn := [], task := .writing, phase := .txFlush } = .next t :=
  ⟨⟨_, rfl⟩, ⟨_, rfl⟩⟩

/-- A transaction under WRITE_VALUE: the machine runs, and the invariant holds. -/
theorem test_hyp_StepKeepsInvariant :
    (let s : State := { ready [] with task := .writing, phase := .txFlush, reqKind := .write }
     s.Inv ∧ s.hostStatus) :=
  ⟨⟨⟨by decide, by decide, by decide, by decide, by decide⟩, ⟨by decide, fun _ => by decide⟩,
    fun h => absurd (show LinkState.ready = .unestablished from h) (by decide), fun _ => rfl⟩, trivial, rfl⟩

/-- A read request built and about to be sent under a sweep. -/
theorem test_hyp_OnlyLegalMessagesSent :
    (let s : State := { ready [quiet] with task := .sweeping, phase := .txFrame,
                                           txbuf := [0x41, 0x05, 0x00, 0x01, 0x08, 0x00, 0x02, 0x10] }
     s.lineLegal ∧ ∃ t, step s = .next t) :=
  ⟨⟨trivial, by intro e h; simp [ready, State.reset] at h,
    fun h => (by cases h),
    fun _ _ => ⟨[0x00, 0x01, 0x08, 0x00, 0x02], .inl ⟨0x0800, 2, by decide, by decide, by decide⟩, by decide⟩⟩,
    ⟨_, rfl⟩⟩

end Sys2Proof.Tests
end

section
namespace Sys2Proof.Machine

/-! ### The work of a step and its move

A step of the sequencer first does some work (an interaction, a computation) and then moves on. The work
leaves the session's registers alone and every other register in its width; the move is one of few. -/

/-- The registers that say where the session stands: what the invariants speak of beside the widths. -/
def State.session (s : State) : Phase × LinkState × Bool × Task × Option Err × Option Result :=
  (s.phase, s.link, s.portHeld, s.task, s.err, s.lastResult)

/-- From s to u only work is done: the session stands where it stood, the registry is not written, and the
widths are kept. -/
structure Work (s u : State) : Prop where
  session : u.session = s.session
  registry : u.registry = s.registry
  widths : s.inWidths → u.inWidths

/-- How a running operation moves on after its work, in every phase but `IDLE` and `CLOSE_PORT`. -/
inductive Move (u : State) : State → Prop
  /-- The next phase, in the handshake as before or outside it as before. -/
  | goesOn (q : Phase) (h : u.phase.inHandshake ↔ q.inHandshake) : Move u { u with phase := q }
  /-- An error, in whatever operation (R114). -/
  | raised (e : Fail) : Move u (raise e u)
  /-- An internal operation ends. -/
  | returned (r : Result) (h : ¬ u.phase.inHandshake) : Move u (finishOp r u)
  /-- A host command ends (R116). -/
  | completed (r : Result) (h : ¬ u.phase.inHandshake) : Move u (finishCmd r u)
  /-- The sync acknowledge makes the link ready (R69). -/
  | synced (h : u.phase.inHandshake) : Move u (syncAcked u)
  /-- The port is granted to OPEN, and the handshake begins (R104). -/
  | granted (path : String) (h : u.task = .opening path) : Move u (startHandshake (portGrant path u))

/-- One step of a running operation: work, then a move. -/
def Advances (s t : State) : Prop := ∃ u, Work s u ∧ Move u t

theorem Work.refl (s : State) : Work s s := ⟨rfl, rfl, id⟩

theorem Work.trans {s u v : State} (h : Work s u) (k : Work u v) : Work s v :=
  ⟨k.session.trans h.session, k.registry.trans h.registry, k.widths ∘ h.widths⟩

theorem Work.phase_eq {s u : State} (h : Work s u) : u.phase = s.phase := congrArg Prod.fst h.session

theorem Work.task_eq {s u : State} (h : Work s u) : u.task = s.task := congrArg (·.2.2.2.1) h.session

theorem Work.advances {s u t : State} (h : Work s u) (k : Advances u t) : Advances s t := by
  obtain ⟨v, hv, m⟩ := k
  exact ⟨v, h.trans hv, m⟩

/-- What the peer appends at the end of a step is work (R34). -/
theorem work_endStep (s : State) : Work s (endStep s) :=
  ⟨by simp [State.session], by simp, by simp [State.inWidths]⟩

/-! ### The invariant through works and moves -/

theorem Work.inv {s u : State} (w : Work s u) (h : s.Inv) : u.Inv := by
  obtain ⟨hw, hlink⟩ := h
  have hs := w.session
  simp only [State.session, Prod.mk.injEq] at hs
  obtain ⟨hp, hl, hh, ht, -, -⟩ := hs
  refine ⟨w.widths hw, ?_⟩
  simpa only [State.portAgrees, State.unestablishedInOpen, State.transactionsInReady, hp, hl, hh, ht]
    using hlink

/-- Outside the handshake and the release of the port the link is `Ready` or `Closed` (R15). -/
theorem State.Inv.link_ne_unestablished {s : State} (h : s.Inv) (hh : ¬ s.phase.inHandshake)
    (hc : s.phase ≠ .closePort) : s.link ≠ .unestablished := by
  obtain ⟨-, -, hu, -⟩ := h
  intro hl
  obtain ⟨-, hin⟩ | ⟨-, hcl⟩ := hu hl
  · exact hh hin
  · exact hc hcl

/-- The end of a host command keeps the invariant when the link is `Ready` or `Closed`. -/
theorem State.Inv.finishCmd {s : State} (r : Result) (h : s.Inv) (hl : s.link ≠ .unestablished) :
    (finishCmd r s).Inv := by
  obtain ⟨hw, ⟨hport, -⟩, -, -⟩ := h
  exact ⟨hw, ⟨hport, by simp [Phase.inHandshake]⟩, fun hu => absurd hu hl, by simp [State.transactionsInReady]⟩

/-- So does the end of an internal operation, which leaves the phase. -/
theorem State.Inv.finishOp {s : State} (r : Result) (h : s.Inv) (hl : s.link ≠ .unestablished) :
    (finishOp r s).Inv := by
  obtain ⟨hw, hport, -, -⟩ := h
  exact ⟨hw, hport, fun hu => absurd hu hl, by simp [State.transactionsInReady]⟩

/-- An error keeps it: in OPEN the release of the port follows, elsewhere the operation ends. -/
theorem State.Inv.raise {s : State} (e : Fail) (h : s.Inv) (hc : s.phase ≠ .closePort) :
    (raise e s).Inv := by
  have ends : (∀ path, s.task ≠ .opening path) → s.link ≠ .unestablished := by
    obtain ⟨-, -, hu, -⟩ := h
    intro ho hl
    obtain ⟨⟨path, hp⟩, -⟩ | ⟨-, hcl⟩ := hu hl
    · exact ho path hp
    · exact hc hcl
  unfold Machine.raise
  split
  · obtain ⟨hw, ⟨hport, -⟩, -, -⟩ := h
    exact ⟨hw, ⟨hport, by simp [Phase.inHandshake]⟩, fun _ => .inr ⟨⟨e, rfl⟩, rfl⟩,
      by simp [State.transactionsInReady]⟩
  · rename_i ht
    exact State.Inv.finishCmd _ h (ends (by simp [ht]))
  · rename_i ht
    exact h.finishCmd _ (ends (by simp [ht]))
  · rename_i ht
    exact h.finishCmd _ (ends (by simp [ht]))
  · rename_i ht
    exact h.finishCmd _ (ends (by simp [ht]))
  · rename_i ho _ _ _ _
    exact State.Inv.finishOp _ h (ends ho)

end Sys2Proof.Machine
end

section
namespace Sys2Proof.Machine

/-- With `wake_count` 0 the loop is entered, with no error (R68). -/
theorem startHandshake_eq (s : State) :
    startHandshake s = { s with wakeCount := 0, wakeLast := none, phase := .hsWakeTx } := rfl

theorem Move.inv {u t : State} (m : Move u t) (h : u.Inv) (hc : u.phase ≠ .closePort) : t.Inv := by
  obtain ⟨hw, ⟨hport, hhand⟩, hu, htx⟩ := id h
  cases m with
  | goesOn q hq =>
    refine ⟨hw, ⟨hport, fun hin => hhand (hq.2 hin)⟩, fun hl => ?_, htx⟩
    obtain ⟨ho, hin⟩ | ⟨-, hcl⟩ := hu hl
    · exact .inl ⟨ho, hq.1 hin⟩
    · exact absurd hcl hc
  | raised e => exact h.raise e hc
  | returned r hh => exact h.finishOp r (h.link_ne_unestablished hh hc)
  | completed r hh => exact h.finishCmd r (h.link_ne_unestablished hh hc)
  | synced hh =>
    have hready : ({ u with link := .ready } : State).Inv :=
      ⟨hw, ⟨by simp [hport, hhand hh], by simp⟩, nofun, fun _ => rfl⟩
    unfold syncAcked
    split
    · exact hready.finishCmd _ (by simp)
    · exact hready.finishOp _ (by simp)
  | granted path ht =>
    obtain ⟨-, htxbuf, hrxbuf, hreq, hidx⟩ := hw
    rw [startHandshake_eq]
    exact ⟨⟨by simp, htxbuf, hrxbuf, hreq, hidx⟩, ⟨by simp, by simp⟩,
      fun _ => .inl ⟨⟨path, ht⟩, .inl rfl⟩, by simp [State.transactionsInReady, ht]⟩

/-- `CLOSE_PORT`: the link is closed and the command ends (R104, R108). -/
theorem State.Inv.closePortStep {s : State} (h : s.Inv) :
    (closePortStep s).Inv := by
  obtain ⟨hw, -, -, -⟩ := h
  have hclosed (r : Result) : (Machine.finishCmd r (portClose s)).Inv :=
    ⟨hw, ⟨by simp, by simp [Phase.inHandshake]⟩, nofun, by simp [State.transactionsInReady]⟩
  unfold Machine.closePortStep
  split <;> exact hclosed _

/-! ### `err` and `last_result` through works and moves -/

/-- Unless OPEN releases the port, `err` is what `last_result` says (R25, R26). -/
theorem statusAgrees_iff {s : State} (hr : ∀ e, s.task ≠ .releasing e) :
    s.statusAgrees ↔ s.err = s.lastResult.bind Result.errOf := by
  unfold State.statusAgrees
  split
  · rename_i e he
    exact absurd he (hr e)
  · split <;> simp [*, Result.errOf]

/-- OPEN releases the port only in `CLOSE_PORT`. -/
theorem State.hostStatus.not_releasing {s : State} (h : s.hostStatus) (hc : s.phase ≠ .closePort) (e : Fail) :
    s.task ≠ .releasing e := by
  obtain ⟨-, hs⟩ := h
  intro ht
  simp only [State.statusAgrees, ht] at hs
  exact hc hs.1

theorem Work.hostStatus {s u : State} (w : Work s u) (h : s.hostStatus) : u.hostStatus := by
  have hs := w.session
  simp only [State.session, Prod.mk.injEq] at hs
  obtain ⟨hp, -, -, ht, he, hr⟩ := hs
  simpa only [State.hostStatus, State.statusAgrees, hp, ht, he, hr] using h

/-- The end of a host command writes both alike (R115, R116). -/
theorem finishCmd_hostStatus (r : Result) (s : State) : (finishCmd r s).hostStatus :=
  ⟨trivial, (statusAgrees_iff (by simp)).2 rfl⟩

/-- A move to a task that neither writes nor reads them keeps them agreed. -/
theorem State.hostStatus.of_same {s t : State} (h : s.hostStatus) (hc : s.phase ≠ .closePort)
    (ht : t.task.ofHost) (hr : ∀ e, t.task ≠ .releasing e) (he : t.err = s.err)
    (hl : t.lastResult = s.lastResult) : t.hostStatus := by
  refine ⟨ht, (statusAgrees_iff hr).2 ?_⟩
  rw [he, hl]
  exact (statusAgrees_iff (h.not_releasing hc)).1 h.2

/-- An error under a host command: OPEN goes on to release the port, every other command ends. -/
theorem State.hostStatus.raise {s : State} (e : Fail) (h : s.hostStatus) (ht : s.task ≠ .idle) :
    (raise e s).hostStatus := by
  obtain ⟨hhost, -⟩ := h
  unfold Machine.raise
  split
  · exact ⟨trivial, rfl, rfl⟩
  · exact finishCmd_hostStatus _ _
  · exact finishCmd_hostStatus _ _
  · exact finishCmd_hostStatus _ _
  · exact finishCmd_hostStatus _ _
  · cases hk : s.task <;> simp_all [Task.ofHost]

theorem Move.hostStatus {u t : State} (m : Move u t) (h : u.hostStatus) (hc : u.phase ≠ .closePort)
    (ht : u.task ≠ .idle) : t.hostStatus := by
  have hr := h.not_releasing hc
  cases m with
  | goesOn q hq => exact h.of_same hc h.1 hr rfl rfl
  | raised e => exact h.raise e ht
  | returned r hh => exact h.of_same hc trivial (by simp) rfl rfl
  | completed r hh => exact finishCmd_hostStatus r u
  | synced hh =>
    unfold syncAcked
    split
    · exact finishCmd_hostStatus _ _
    · exact h.of_same hc trivial (by simp) rfl rfl
  | granted path hp => exact h.of_same hc h.1 hr rfl rfl

theorem closePortStep_hostStatus (s : State) : (closePortStep s).hostStatus := by
  unfold closePortStep
  split <;> exact finishCmd_hostStatus _ _

end Sys2Proof.Machine
end

section
namespace Sys2Proof.Machine

/-! ### What each phase does: work, then a move -/

variable {s : State}

/-- Nothing but the phase changes. -/
theorem advances_phase {p q : Phase} (hp : s.phase = p) (h : p.inHandshake ↔ q.inHandshake) :
    Advances s { s with phase := q } :=
  ⟨s, .refl s, .goesOn q (by rwa [hp])⟩

/-- Only work, and the phase stays. -/
theorem Work.stays {u : State} (w : Work s u) : Advances s u := ⟨u, w, .goesOn u.phase Iff.rfl⟩

theorem advances_raise (e : Fail) : Advances s (raise e s) := ⟨s, .refl s, .raised e⟩

/-! The line: neither a write nor a read touches anything of the session. -/

theorem work_txWrite (l : List Byte) (s : State) : Work s (txWrite l s) := ⟨rfl, rfl, id⟩
theorem work_rxRead (n : Nat) (s : State) : Work s (rxRead n s) := ⟨rfl, rfl, id⟩
theorem work_rxFlush (s : State) : Work s (rxFlush s) := ⟨rfl, rfl, id⟩

/-- The frame builder fills `txbuf` with at most 103 bytes (R19, R74). -/
theorem work_buildFrame {p : List Byte} (h : tooLarge p = false) (s : State) : Work s (buildFrame p s) := by
  have hl : p.length ≤ 100 := by simpa [tooLarge, Config.maxTxPayload] using h
  rw [buildFrame_eq]
  refine ⟨rfl, rfl, ?_⟩
  rintro ⟨hwake, -, hrest⟩
  exact ⟨hwake, by simpa using hl, hrest⟩

/-! The handshake (R67 to R69). -/

theorem wakeHead_advances (hp : s.phase.inHandshake) : Advances s (wakeHead s) := by
  unfold wakeHead
  split
  · exact advances_raise _
  · exact advances_phase rfl (iff_of_true hp (.inl rfl))

theorem wakeSend_advances (hp : s.phase = .hsWakeTx) : Advances s (wakeSend s) := by
  unfold wakeSend
  split
  · exact advances_raise _
  · rename_i hn
    have hwork : Work s { txWrite [Config.wakeByte] s with wakeCount := s.wakeCount + 1 } := by
      refine ⟨rfl, rfl, ?_⟩
      rintro ⟨-, hrest⟩
      exact ⟨Nat.lt_of_not_le hn, hrest⟩
    exact hwork.advances (advances_phase hp (by simp [Phase.inHandshake]))

theorem wakeAcked_advances (hp : s.phase = .hsWakeRx) : Advances s (wakeAcked s) :=
  Work.advances (u := { s with wakeLast := some Config.wakeAckByte }) ⟨rfl, rfl, id⟩
    (advances_phase hp (by simp [Phase.inHandshake]))

theorem wakeMissed_advances (r : List Byte) (hp : s.phase = .hsWakeRx) : Advances s (wakeMissed r s) :=
  Work.advances (u := { s with wakeLast := r.head? }) ⟨rfl, rfl, id⟩
    (wakeHead_advances (by simp [Phase.inHandshake, hp]))

theorem syncSend_advances (hp : s.phase = .hsSyncTx) : Advances s (syncSend s) :=
  (work_txWrite Config.syncCmd s).advances (advances_phase hp (by simp [Phase.inHandshake]))

theorem syncAcked_advances (hp : s.phase = .hsSyncRx) : Advances s (syncAcked s) :=
  ⟨s, .refl s, .synced (by simp [Phase.inHandshake, hp])⟩

/-! The transmission of a frame (R74, R82). -/

theorem flushStep_advances (hp : s.phase = .txFlush) : Advances s (flushStep s) := by
  unfold flushStep
  dsimp only
  split
  · exact (work_rxFlush s).advances (advances_raise _)
  · rename_i hl
    exact ((work_rxFlush s).trans (work_buildFrame (by simpa using hl) _)).advances
      (advances_phase (by simpa [buildFrame_eq] using hp) (by simp [Phase.inHandshake]))

theorem transmit_advances (hp : s.phase = .txFrame) : Advances s (transmit s) := by
  refine (work_txWrite s.txbuf s).advances ?_
  unfold transmit
  dsimp only
  split
  · exact advances_raise _
  · exact advances_phase hp (by simp [Phase.inHandshake])

theorem requestSent_advances (p : List Byte) (hp : s.phase = .txFrame) : Advances s (requestSent p s) := by
  unfold requestSent sendFrame
  split
  · exact advances_raise _
  · rename_i hl
    have hphase : Work (buildFrame p s) { buildFrame p s with phase := .txFrame } :=
      ⟨by simp [State.session, buildFrame_eq, hp], rfl, id⟩
    exact ((work_buildFrame (by simpa using hl) s).trans hphase).advances (transmit_advances rfl)

/-! The parse (R75 to R79). -/

theorem ackReceived_advances (hp : s.phase = .rxAck) : Advances s (ackReceived s) :=
  Work.advances (u := { s with ackByte := Config.ackByte }) ⟨rfl, rfl, id⟩
    (advances_phase hp (by simp [Phase.inHandshake]))

theorem nakReceived_advances (s : State) : Advances s (nakReceived s) :=
  Work.advances (u := { s with ackByte := Config.nakByte }) ⟨rfl, rfl, id⟩ (advances_raise _)

theorem ackMissed_advances (r : List Byte) (s : State) : Advances s (ackMissed r s) := by
  unfold ackMissed
  split
  · exact advances_raise _
  · rename_i b _
    exact Work.advances (u := { s with ackByte := b }) ⟨rfl, rfl, id⟩ (advances_raise _)

theorem startStep_advances (hp : s.phase = .rxStart) : Advances s (startStep s) := by
  unfold startStep
  split
  · exact (work_rxRead 1 s).advances (advances_raise _)
  · rename_i b _ _
    have hwork : Work s { rxRead 1 s with startByte := b } := ⟨rfl, rfl, id⟩
    split
    · exact hwork.advances (advances_raise _)
    · exact hwork.advances (advances_phase hp (by simp [Phase.inHandshake]))

theorem lenStep_advances (hp : s.phase = .rxLen) : Advances s (lenStep s) := by
  unfold lenStep
  split
  · exact (work_rxRead 1 s).advances (advances_raise _)
  · rename_i b _ _
    exact Work.advances (u := { rxRead 1 s with declaredSize := b }) ⟨rfl, rfl, id⟩
      (advances_phase hp (by simp [Phase.inHandshake]))

/-- A body is read of at most 256 bytes (R20, R78). -/
theorem bodyStep_advances (hp : s.phase = .rxBody) : Advances s (bodyStep s) := by
  have hlen := readBytes_length_le (s.declaredSize.toNat + 1) s
  have hbyte := s.declaredSize.isLt
  have hwork (r : Option (List Byte)) : Work s { rxRead (s.declaredSize.toNat + 1) s with
      rxbuf := s.readBytes (s.declaredSize.toNat + 1), rsp := r } := by
    refine ⟨rfl, rfl, ?_⟩
    rintro ⟨hwake, htxbuf, -, hrest⟩
    exact ⟨hwake, htxbuf, by dsimp only; omega, hrest⟩
  unfold bodyStep
  dsimp only
  split
  · exact (hwork s.rsp).advances (advances_raise _)
  · exact (hwork none).advances (advances_phase hp (by simp [Phase.inHandshake]))

theorem parseReturn_advances (p : List Byte) (hp : s.phase = .check) : Advances s (parseReturn p s) := by
  have hstays : Advances s { s with rsp := some p } := Work.stays ⟨rfl, rfl, id⟩
  unfold parseReturn
  split
  · exact hstays
  · exact hstays
  · exact hstays
  · exact hstays
  · exact ⟨s, .refl s, .returned _ (by simp [Phase.inHandshake, hp])⟩

theorem checkFrame_advances (hp : s.phase = .check) : Advances s (checkFrame s) := by
  have hwork : Work s (ckRun s.declaredSize s.rxPayload { s with phase := .check }) := by
    rw [ckRun_eq]
    exact ⟨by simp [State.session, hp], rfl, id⟩
  refine hwork.advances ?_
  unfold checkFrame
  dsimp only
  split
  · exact advances_raise _
  · split
    · exact advances_raise _
    · exact parseReturn_advances _ (hwork.phase_eq.trans hp)

/-! The register client (R84 to R87). -/

theorem readReturn_advances (rsp : List Byte) (hp : s.phase = .check) : Advances s (readReturn rsp s) := by
  unfold readReturn
  split
  · exact Work.advances (u := { s with rsp := some rsp }) ⟨rfl, rfl, id⟩
      (advances_phase hp (by simp [Phase.inHandshake]))
  · exact ⟨s, .refl s, .returned _ (by simp [Phase.inHandshake, hp])⟩

theorem writeReturn_advances (hp : s.phase = .check) : Advances s (writeReturn s) := by
  have hh : ¬ s.phase.inHandshake := by simp [Phase.inHandshake, hp]
  unfold writeReturn
  split
  · exact ⟨s, .refl s, .completed _ hh⟩
  · exact ⟨s, .refl s, .returned _ hh⟩

theorem echoCheck_advances (rsp : List Byte) (hp : s.phase = .check) : Advances s (echoCheck rsp s) := by
  unfold echoCheck
  split
  · split
    · exact advances_raise _
    · exact readReturn_advances rsp hp
  · split
    · exact advances_raise _
    · exact writeReturn_advances hp

/-- A transaction begins outside the handshake (R82). -/
theorem startTransaction_advances (hh : ¬ s.phase.inHandshake) : Advances s (startTransaction s) :=
  Work.advances (u := { s with rsp := none }) ⟨rfl, rfl, id⟩
    (advances_phase rfl (iff_of_false hh (by simp [Phase.inHandshake])))

theorem startRead_advances (addr : Addr) (size : Int) (hh : ¬ s.phase.inHandshake) :
    Advances s (startRead addr size s) := by
  unfold startRead
  split
  · exact advances_raise _
  · exact Work.advances
      (u := { s with reqKind := .read, reqAddr := addr, reqSize := BitVec.ofInt 8 size }) ⟨rfl, rfl, id⟩
      (startTransaction_advances hh)

theorem startWrite_advances (addr : Addr) (data : List Byte) (hh : ¬ s.phase.inHandshake) :
    Advances s (startWrite addr data s) := by
  unfold startWrite
  refine Work.advances ⟨?_, ?_, ?_⟩ (startTransaction_advances ?_)
  · rfl
  · rfl
  · rintro ⟨hwake, htxbuf, hrxbuf, -, hidx⟩
    exact ⟨hwake, htxbuf, hrxbuf, dataReg_length_le data, hidx⟩
  · exact hh

/-! The session controller (R103 to R108). -/

theorem finishSweep_advances (hh : ¬ s.phase.inHandshake) : Advances s (finishSweep s) :=
  ⟨{ s with sweepMap := addDerived s.sweepMap }, ⟨rfl, rfl, id⟩, .completed _ hh⟩

/-- The sweep takes only indices of the registry (R22, R105). -/
theorem sweepEntry_advances (i : Nat) (hh : ¬ s.phase.inHandshake) : Advances s (sweepEntry i s) := by
  unfold sweepEntry
  split
  · exact finishSweep_advances hh
  · rename_i d hd
    have hwork : Work s { s with sweepIdx := i } := by
      refine ⟨rfl, rfl, ?_⟩
      rintro ⟨hwake, htxbuf, hrxbuf, hreq, -⟩
      exact ⟨hwake, htxbuf, hrxbuf, hreq, (List.getElem?_eq_some_iff.1 hd).1.le⟩
    exact hwork.advances (startRead_advances _ _ hh)

theorem decodeStep_advances (hp : s.phase = .decode) : Advances s (decodeStep s) := by
  have hh : ¬ s.phase.inHandshake := by simp [Phase.inHandshake, hp]
  unfold decodeStep
  split
  · refine Work.advances ?_ (sweepEntry_advances _ ?_)
    · exact ⟨rfl, rfl, id⟩
    · exact hh
  · exact finishSweep_advances hh

theorem openPortStep_advances (hp : s.phase = .openPort) : Advances s (openPortStep s) := by
  unfold openPortStep
  split
  · rename_i path ht
    split
    · exact ⟨s, .refl s, .granted path ht⟩
    · exact ⟨portRefuse path s, ⟨rfl, rfl, id⟩, .completed _ (by simp [Phase.inHandshake, hp])⟩
  · exact advances_phase hp (by simp [Phase.inHandshake])

/-- Every step of a running operation, but the release of the port, is work and a move. -/
theorem advance_advances (ht : s.task ≠ .idle) (hi : s.phase ≠ .idle) (hc : s.phase ≠ .closePort) :
    Advances s (advance s) := by
  have hread := work_rxRead 1 s
  cases hp : s.phase with
  | idle => exact absurd hp hi
  | closePort => exact absurd hp hc
  | openPort => rw [advance_openPort s ht hp]; exact openPortStep_advances hp
  | hsWakeTx => rw [advance_hsWakeTx s ht hp]; exact wakeSend_advances hp
  | hsWakeRx =>
    rw [advance_hsWakeRx s ht hp]
    split
    · exact hread.advances (wakeAcked_advances hp)
    · exact hread.advances (wakeMissed_advances _ hp)
  | hsSyncTx => rw [advance_hsSyncTx s ht hp]; exact syncSend_advances hp
  | hsSyncRx =>
    rw [advance_hsSyncRx s ht hp]
    split
    · exact hread.advances (syncAcked_advances hp)
    · exact hread.advances (advances_raise _)
  | txFlush => rw [advance_txFlush s ht hp]; exact flushStep_advances hp
  | txFrame =>
    by_cases hf : ∃ p, p.length ≤ 100 ∧ s.txbuf = frameOf p
    · obtain ⟨p, hl, hb⟩ := hf
      rw [advance_txFrame s p ht hp hl hb]
      exact requestSent_advances p hp
    · rw [advance_txFrame_raw s ht hp fun p hl hb => hf ⟨p, hl, hb⟩]
      exact transmit_advances hp
  | rxAck =>
    rw [advance_rxAck s ht hp]
    split
    · exact hread.advances (ackReceived_advances hp)
    · split
      · exact hread.advances (nakReceived_advances _)
      · exact hread.advances (ackMissed_advances _ _)
  | rxStart => rw [advance_rxStart s ht hp]; exact startStep_advances hp
  | rxLen => rw [advance_rxLen s ht hp]; exact lenStep_advances hp
  | rxBody => rw [advance_rxBody s ht hp]; exact bodyStep_advances hp
  | check =>
    cases hr : s.rsp with
    | none => rw [advance_check s ht hp hr]; exact checkFrame_advances hp
    | some p => rw [advance_echo s p ht hp hr]; exact echoCheck_advances p hp
  | decode => rw [advance_decode s ht hp]; exact decodeStep_advances hp

/-! ### The acceptance of a host command -/

/-- A task a host command starts with at `IDLE`: its transactions need a ready link (R103). -/
structure Starts (s : State) (k : Task) : Prop where
  host : k.ofHost
  runs : k ≠ .idle
  holds : ∀ e, k ≠ .releasing e
  ready : k = .sweeping ∨ k = .writing → s.link = .ready

/-- Accepting a command ends it at once, or starts its task and moves on (R103). -/
theorem acceptCmd_advances (c : HostCmd) (hp : s.phase = .idle) :
    (∃ r, acceptCmd c s = finishCmd r s) ∨
    ∃ k, Starts s k ∧ Advances { s with task := k } (acceptCmd c s) := by
  have hh : ¬ s.phase.inHandshake := by simp [Phase.inHandshake, hp]
  cases c with
  | openCmd path =>
    simp only [acceptCmd, acceptOpen]
    split
    · exact .inl ⟨_, rfl⟩
    · exact .inr ⟨.opening path, ⟨trivial, by simp, by simp, by simp⟩,
        advances_phase hp (by simp [Phase.inHandshake])⟩
  | getMeasurements =>
    simp only [acceptCmd, acceptSweep]
    split
    · exact .inl ⟨_, rfl⟩
    · rename_i hl
      exact .inr ⟨.sweeping, ⟨trivial, by simp, by simp, fun _ => by simpa using hl⟩,
        Work.advances (u := { s with task := .sweeping, sweepMap := [] }) ⟨rfl, rfl, id⟩
          (sweepEntry_advances 0 hh)⟩
  | writeValue name v =>
    simp only [acceptCmd, acceptWrite]
    split
    · exact .inl ⟨_, rfl⟩
    · rename_i hl
      split
      · exact .inl ⟨_, rfl⟩
      · split
        · split
          · exact .inl ⟨_, rfl⟩
          · exact .inr ⟨.writing, ⟨trivial, by simp, by simp, fun _ => by simpa using hl⟩,
              startWrite_advances (s := { s with task := .writing }) _ _ hh⟩
        · exact .inl ⟨_, rfl⟩
  | closeCmd =>
    simp only [acceptCmd, acceptClose]
    split
    · exact .inl ⟨_, rfl⟩
    · exact .inr ⟨.closing, ⟨trivial, by simp, by simp, by simp⟩,
        advances_phase hp (by simp [Phase.inHandshake])⟩

/-- Taking the next command from the queue is work. -/
theorem work_hostq (cs : List HostCmd) (s : State) : Work s { s with hostq := cs } := ⟨rfl, rfl, id⟩

/-! ### One step of the machine -/

/-- One step of the sequencer: it waits, accepts a command, returns a stray phase to `IDLE` (log 16), releases
the port, or does work and moves on. -/
theorem advance_cases (s : State) :
    advance s = s ∨
    (s.phase = .idle ∧ ∃ c cs, advance s = acceptCmd c { s with hostq := cs }) ∨
    (s.phase ≠ .idle ∧ s.task = .idle ∧ advance s = { s with phase := .idle }) ∨
    (s.phase = .closePort ∧ advance s = closePortStep s) ∨
    (s.task ≠ .idle ∧ s.phase ≠ .closePort ∧ Advances s (advance s)) := by
  by_cases hi : s.phase = .idle
  · rw [advance_idle s hi]
    unfold idleStep
    split
    · exact .inl rfl
    · exact .inr (.inl ⟨hi, _, _, rfl⟩)
  · refine .inr (.inr ?_)
    by_cases ht : s.task = .idle
    · exact .inl ⟨hi, ht, advance_stray s ht hi⟩
    · by_cases hc : s.phase = .closePort
      · exact .inr (.inl ⟨hc, advance_closePort s ht hc⟩)
      · exact .inr (.inr ⟨ht, hc, advance_advances ht hi hc⟩)

/-- A step is a reset, or one step of the sequencer with the peer's bytes; it always answers (R13, R128). -/
theorem step_cases (s : State) :
    step s = .next (applyReset s) ∨ ∃ l, step s = .next (tick { s with resetIn := l }) := by
  unfold step
  split
  · rename_i h
    refine .inr ⟨[], ?_⟩
    rw [sequencerStep_eq, ← h]
    rfl
  · exact .inl rfl
  · rename_i k rest _
    exact .inr ⟨k :: rest, by rw [sequencerStep_eq]; rfl⟩

end Sys2Proof.Machine
end

section
namespace Sys2Proof.Machine

/-! ### Every step keeps the invariant -/

theorem Advances.inv {s t : State} (a : Advances s t) (h : s.Inv) (hc : s.phase ≠ .closePort) : t.Inv := by
  obtain ⟨u, w, m⟩ := a
  exact m.inv (w.inv h) (by rwa [w.phase_eq])

theorem Advances.hostStatus {s t : State} (a : Advances s t) (h : s.hostStatus) (hc : s.phase ≠ .closePort)
    (ht : s.task ≠ .idle) : t.hostStatus := by
  obtain ⟨u, w, m⟩ := a
  exact m.hostStatus (w.hostStatus h) (by rwa [w.phase_eq]) (by rwa [w.task_eq])

theorem State.Inv.starts {s : State} {k : Task} (h : s.Inv) (hp : s.phase = .idle) (hk : Starts s k) :
    ({ s with task := k } : State).Inv := by
  have hl := h.link_ne_unestablished (by simp [Phase.inHandshake, hp]) (by simp [hp])
  obtain ⟨hw, hport, -, -⟩ := h
  exact ⟨hw, hport, fun hu => absurd hu hl, hk.ready⟩

theorem acceptCmd_inv (c : HostCmd) {s : State} (h : s.Inv) (hp : s.phase = .idle) : (acceptCmd c s).Inv := by
  obtain ⟨r, hr⟩ | ⟨k, hk, ha⟩ := acceptCmd_advances c hp
  · rw [hr]
    exact h.finishCmd r (h.link_ne_unestablished (by simp [Phase.inHandshake, hp]) (by simp [hp]))
  · exact ha.inv (h.starts hp hk) (by simp [hp])

theorem acceptCmd_hostStatus (c : HostCmd) {s : State} (h : s.hostStatus) (hp : s.phase = .idle) :
    (acceptCmd c s).hostStatus := by
  have hc : s.phase ≠ .closePort := by simp [hp]
  obtain ⟨r, hr⟩ | ⟨k, hk, ha⟩ := acceptCmd_advances c hp
  · rw [hr]
    exact finishCmd_hostStatus r s
  · exact ha.hostStatus (h.of_same hc hk.host hk.holds rfl rfl) hc hk.runs

/-- With no operation running, a stray phase returns to `IDLE` (log 16). -/
theorem State.Inv.stray {s : State} (h : s.Inv) (ht : s.task = .idle) :
    ({ s with phase := .idle } : State).Inv := by
  obtain ⟨hw, ⟨hport, -⟩, hu, htx⟩ := h
  refine ⟨hw, ⟨hport, by simp [Phase.inHandshake]⟩, fun hl => ?_, htx⟩
  obtain ⟨⟨path, ho⟩, -⟩ | ⟨⟨e, he⟩, -⟩ := hu hl
  · simp [ht] at ho
  · simp [ht] at he

theorem advance_inv {s : State} (h : s.Inv) : (advance s).Inv := by
  obtain hw | ⟨hi, c, cs, hs⟩ | ⟨-, ht, hs⟩ | ⟨-, hs⟩ | ⟨-, hc, ha⟩ := advance_cases s
  · exact hw.symm ▸ h
  · rw [hs]
    exact acceptCmd_inv c ((work_hostq cs s).inv h) hi
  · rw [hs]
    exact h.stray ht
  · rw [hs]
    exact h.closePortStep
  · exact ha.inv h hc

theorem advance_hostStatus {s : State} (h : s.hostStatus) : (advance s).hostStatus := by
  obtain hw | ⟨hi, c, cs, hs⟩ | ⟨-, ht, hs⟩ | ⟨-, hs⟩ | ⟨ht, hc, ha⟩ := advance_cases s
  · exact hw.symm ▸ h
  · rw [hs]
    exact acceptCmd_hostStatus c ((work_hostq cs s).hostStatus h) hi
  · rw [hs]
    simpa [State.hostStatus, State.statusAgrees, ht] using h
  · rw [hs]
    exact closePortStep_hostStatus s
  · exact ha.hostStatus h hc ht

/-! ### Reset -/

theorem reset_inv : State.reset.Inv :=
  ⟨⟨Nat.zero_le _, Nat.zero_le _, Nat.zero_le _, Nat.zero_le _, Nat.zero_le _⟩,
    ⟨by decide, by simp [State.reset, Phase.inHandshake]⟩, nofun, by simp [State.transactionsInReady, State.reset]⟩

theorem reset_hostStatus : State.reset.hostStatus := ⟨trivial, rfl⟩

/-- A reset in a run meets the invariant: it leaves the registry, and nothing else it speaks of (R127). -/
theorem applyReset_inv (s : State) : (applyReset s).Inv := by
  obtain ⟨⟨hwake, htxbuf, hrxbuf, hreq, -⟩, hlink⟩ := reset_inv
  exact ⟨⟨hwake, htxbuf, hrxbuf, hreq, Nat.zero_le _⟩, hlink⟩

/-- The reset input coming nearer is work. -/
theorem work_resetIn (l : List Nat) (s : State) : Work s { s with resetIn := l } := ⟨rfl, rfl, id⟩

/-- Settles O56: a step is a reset or an `advance`, and an `advance` is work and one of few moves, each of
which keeps the invariant and the agreement of `err` with `last_result`. -/
theorem stepKeepsInvariant : Obligations.StepKeepsInvariant := by
  intro s h
  obtain hs | ⟨l, hs⟩ := step_cases s
  · exact ⟨_, hs, applyReset_inv s, fun _ => reset_hostStatus⟩
  · have hdue := work_resetIn l s
    have hpeer := work_endStep (advance { s with resetIn := l })
    exact ⟨_, hs, hpeer.inv (advance_inv (hdue.inv h)),
      fun hst => hpeer.hostStatus (advance_hostStatus (hdue.hostStatus hst))⟩

end Sys2Proof.Machine
end

section
namespace Sys2Proof.Machine

/-! ### The reset state -/

/-- `REGISTRY`, as the block holds it, is well-formed (R129; log 12). -/
theorem config_registry_wf : registryWf Config.registry = true := by
  unfold Config.registry
  split
  · assumption
  · rfl

/-- Nothing has been sent, and nothing is about to be. -/
theorem reset_lineLegal : State.reset.lineLegal := ⟨trivial, nofun, nofun, nofun⟩

/-- Settles O58. -/
theorem resetMeetsInvariants : Obligations.ResetMeetsInvariants :=
  ⟨reset_inv, reset_hostStatus, reset_lineLegal, config_registry_wf⟩

/-! ### The registry is never written (R27) -/

theorem Move.registry {u t : State} (m : Move u t) : t.registry = u.registry := by
  cases m with
  | goesOn q h => rfl
  | raised e => exact raise_registry e u
  | returned r h => rfl
  | completed r h => rfl
  | synced h => unfold syncAcked; split <;> rfl
  | granted path h => rfl

theorem Advances.registry {s t : State} (a : Advances s t) : t.registry = s.registry := by
  obtain ⟨u, w, m⟩ := a
  exact m.registry.trans w.registry

theorem acceptCmd_registry (c : HostCmd) {s : State} (hp : s.phase = .idle) :
    (acceptCmd c s).registry = s.registry := by
  obtain ⟨r, hr⟩ | ⟨k, -, ha⟩ := acceptCmd_advances c hp
  · rw [hr]; rfl
  · exact ha.registry

@[simp] theorem advance_registry (s : State) : (advance s).registry = s.registry := by
  obtain hs | ⟨hi, c, cs, hs⟩ | ⟨-, -, hs⟩ | ⟨-, hs⟩ | ⟨-, -, ha⟩ := advance_cases s
  · rw [hs]
  · rw [hs]
    exact acceptCmd_registry (s := { s with hostq := cs }) c hi
  · rw [hs]
  · rw [hs]
    unfold closePortStep
    split <;> rfl
  · exact ha.registry

theorem tick_registry (s : State) : (tick s).registry = s.registry := by
  simp [tick]

theorem drive_registry (n : Nat) (s : State) : (drive n s).registry = s.registry :=
  drive_keeps (fun t => t.registry = s.registry) (fun t h => (tick_registry t).trans h) n s rfl

theorem step_registry {s t : State} (h : step s = .next t) : t.registry = s.registry := by
  obtain hs | ⟨l, hs⟩ := step_cases s <;> rw [hs] at h <;> cases h
  · rfl
  · exact tick_registry _

/-! The messages, each on its own in any state. -/

theorem wakeSend_registry (s : State) : (wakeSend s).registry = s.registry := by
  unfold wakeSend
  split
  · exact raise_registry _ _
  · rfl

theorem syncAcked_registry (s : State) : (syncAcked s).registry = s.registry := by
  unfold syncAcked
  split <;> rfl

theorem requestSent_registry (p : List Byte) (s : State) : (requestSent p s).registry = s.registry := by
  unfold requestSent sendFrame
  split
  · exact raise_registry _ _
  · simp only [transmit, buildFrame_eq]
    split
    · exact raise_registry _ _
    · rfl

theorem parseReturn_registry (p : List Byte) (s : State) : (parseReturn p s).registry = s.registry := by
  unfold parseReturn
  split <;> rfl

theorem checkFrame_registry (s : State) : (checkFrame s).registry = s.registry := by
  simp only [checkFrame, ckRun_eq]
  split
  · exact raise_registry _ _
  · split
    · exact raise_registry _ _
    · exact parseReturn_registry _ _

theorem echoCheck_registry (rsp : List Byte) (s : State) : (echoCheck rsp s).registry = s.registry := by
  have hread : (readReturn rsp s).registry = s.registry := by
    unfold readReturn
    split <;> rfl
  have hwrite : (writeReturn s).registry = s.registry := by
    unfold writeReturn
    split <;> rfl
  unfold echoCheck
  split <;> split
  · exact raise_registry _ _
  · exact hread
  · exact raise_registry _ _
  · exact hwrite

theorem runMessage_registry (i : Instr) (s : State) : (runMessage i s).registry = s.registry := by
  unfold runMessage
  split
  · exact wakeSend_registry s
  · rfl
  · rfl
  · exact syncAcked_registry s
  · rfl
  · exact raise_registry _ _
  · exact requestSent_registry _ s
  · exact checkFrame_registry _
  · exact requestSent_registry _ s
  · exact echoCheck_registry _ _
  · exact requestSent_registry _ s
  · exact echoCheck_registry _ _
  all_goals rfl

/-! Commands and operations run to their end. -/

theorem whenIdle_registry {c : HostCmd} {s t : State} (h : whenIdle c s = .next t) :
    t.registry = s.registry := by
  unfold whenIdle at h
  split at h
  · cases h
  · rename_i hb
    cases h
    rw [runCmd, drive_registry, endStep_registry]
    exact acceptCmd_registry c (by simpa [State.busy] using hb)

theorem runOp_registry (k : Task) (start : State → State) (s : State)
    (h : ∀ u, (start u).registry = u.registry) : (runOp k start s).registry = s.registry :=
  (drive_registry _ _).trans (h _)

theorem startRead_registry (addr : Addr) (size : Int) (s : State) :
    (startRead addr size s).registry = s.registry := by
  unfold startRead
  split
  · exact raise_registry _ _
  · rfl

theorem exec_registry (i : Instr) {s t : State} (h : exec i s = .next t) : t.registry = s.registry := by
  by_cases hw : i.slot.isSome
  · rw [exec_wire i s hw] at h
    cases h
    exact runMessage_registry i s
  · cases i with
    | wake | wakeAck | sync | syncAck | ack | nak | reqFrame | respFrame | readReq | readRsp | writeReq
    | writeRsp => exact absurd rfl hw
    | openCmd | getMeasurements | writeValue | closeCmd => exact whenIdle_registry h
    | handshake => cases h; exact runOp_registry _ _ s fun _ => rfl
    | parse => cases h; exact runOp_registry _ _ s fun _ => rfl
    | execute p => cases h; exact runOp_registry _ _ s fun _ => rfl
    | regRead addr size => cases h; exact runOp_registry _ _ s (startRead_registry addr size)
    | regWrite addr data => cases h; exact runOp_registry _ _ s fun _ => rfl
    | ckClear | ckAdd | decode | decodeSigned | decodeUnsigned | decodeScaled | modeText | valveText
    | lookup | addDerived => cases h; rfl
    | ckRun len p => cases h; rw [ckRun_eq]
    | build p =>
      simp only [exec, execBuild] at h
      split at h <;> cases h
      · rfl
      · rw [buildFrame_eq]; rfl
    | readCheck rsp =>
      simp only [exec, execReadCheck] at h
      split at h <;> cases h <;> rfl
    | writeCheck rsp =>
      simp only [exec, execWriteCheck] at h
      split at h <;> cases h <;> rfl
    | encodeUnsigned v size =>
      simp only [exec, execEncodeUnsigned] at h
      split at h <;> cases h <;> rfl

/-- Settles O55: the wire messages by `runMessage`, the others by the steps they are driven through. -/
theorem registryNeverWritten : Obligations.RegistryNeverWritten :=
  fun _ _ => ⟨fun i => exec_registry i, step_registry⟩

end Sys2Proof.Machine
end

section
namespace Sys2Proof.Machine

/-! ### The step runs the message it fetched (R63) -/

/-- With no reset due, the message that was fetched is executed in the state its read left. -/
theorem step_of_fetch {s : State} {f : Fetch} {i : Instr} (hr : s.resetIn = []) (hf : fetch s = f)
    (hi : f.instr = some i) : step s = withPeer (exec i f.state) := by
  subst hf
  simp only [step, hr, sequencerStep, hi]

/-- The same where the phase reads one byte. -/
theorem step_of_fetchByte {s : State} {sl : Slot} {i : Instr} (hr : s.resetIn = [])
    (hf : fetch s = fetchByte sl s) (hd : decode sl (s.readBytes 1) = .instr i) :
    step s = withPeer (exec i (rxRead 1 s)) :=
  step_of_fetch hr hf (by simp [fetchByte, hd, Decoded.instr?])

/-- The same where the sequencer holds the bytes already. -/
theorem step_of_fetchHeld {s : State} {sl : Slot} {l : List Byte} {i : Instr} (hr : s.resetIn = [])
    (hf : fetch s = fetchHeld sl l s) (hd : decode sl l = .instr i) : step s = withPeer (exec i s) :=
  step_of_fetch hr hf (by simp [fetchHeld, hd, Decoded.instr?])

theorem fetch_txFrame {s : State} (ht : s.task ≠ .idle) (hp : s.phase = .txFrame) :
    fetch s = { bytes := s.txbuf, instr := requestOf s.txbuf, state := s } := by
  simp [fetch, ht, hp]

theorem fetch_echo {s : State} {p : List Byte} (ht : s.task ≠ .idle) (hp : s.phase = .check)
    (hr : s.rsp = some p) : fetch s = { bytes := p, instr := replyOf p, state := s } := by
  simp [fetch, ht, hp, hr]

/-- A request frame is run as one, also where its payload is recognised as a register request (log 27). -/
theorem step_reqFrame {s : State} {i : Instr} (hr : s.resetIn = []) (ht : s.task ≠ .idle)
    (hp : s.phase = .txFrame) (hd : decode .txFrame s.txbuf = .instr i) : step s = withPeer (exec i s) := by
  obtain ⟨p, rfl, hl, hb⟩ := decode_txFrame _ _ hd
  obtain ⟨j, hj, hslot, hrun⟩ := requestOf_frameOf p hl
  have hsame : exec j s = exec (.reqFrame p) s := by
    rw [exec_wire j s hslot, hrun]
    rfl
  rw [step_of_fetch hr (fetch_txFrame ht hp) (hb ▸ hj), hsame]

/-- Settles O5: in every phase the fetch gives the decoded message, which `step_of_fetch` runs. -/
theorem stepRunsDecodedMessage : Obligations.StepRunsDecodedMessage := by
  intro s i hr ht
  refine ⟨fun hp => ?_, fun hp => ?_, fun hp hd => ?_, fun p addr size hp hd hq => ?_,
    fun p addr data hp hd hq => ?_, fun hp hd => ?_, fun hp hd => ?_, fun hp hd => ?_, fun hp hn hd => ?_,
    fun p addr size data hp hs hq => ?_, fun p addr n hp hs hq => ?_⟩
  · exact step_of_fetchHeld (sl := .wakeTx) (l := [Config.wakeByte]) hr (by simp only [fetch, ht, hp, if_false]) rfl
  · exact step_of_fetchHeld (sl := .syncTx) (l := Config.syncCmd) hr (by simp only [fetch, ht, hp, if_false]) rfl
  · exact step_reqFrame hr ht hp hd
  · exact step_of_fetch hr (fetch_txFrame ht hp) (by simp only [requestOf, hd, hq])
  · exact step_of_fetch hr (fetch_txFrame ht hp) (by simp only [requestOf, hd, hq])
  · exact step_of_fetchByte hr (by simp only [fetch, ht, hp, if_false]) hd
  · exact step_of_fetchByte hr (by simp only [fetch, ht, hp, if_false]) hd
  · exact step_of_fetchByte hr (by simp only [fetch, ht, hp, if_false]) hd
  · exact step_of_fetchHeld hr (by simp only [fetch, ht, hp, hn, if_false]) hd
  · exact step_of_fetch hr (fetch_echo ht hp hs) (by simp only [replyOf, hq])
  · exact step_of_fetch hr (fetch_echo ht hp hs) (by simp only [replyOf, hq])

end Sys2Proof.Machine
end

section
namespace Sys2Proof.Machine

/-! ### Messages and their bytes (R50 to R64) -/

/-- Whoever judges a frame's payload and checksum byte is given those that stand in it (R53, R54). -/
theorem decodeFrame_payload (f : List Byte → Byte → Decoded) {p : List Byte} (ck : Byte)
    (h : p.length ≤ 255) :
    decodeFrame f (Config.startByte :: byteOfNat p.length :: (p ++ [ck])) = f p ck := by
  have hn : (byteOfNat p.length).toNat = p.length := byteOfNat_toNat _ h
  simp [decodeFrame, hn]

theorem decodePayload_readReq (a : Addr) (n : Byte) :
    decodePayload (readReqPayload a n) = .instr (.readReq a n) := by
  simp [readReqPayload, decodePayload]

theorem decodePayload_readRsp (a : Addr) {n : Byte} {d : List Byte} (h : d.length = n.toNat) :
    decodePayload (readRspPayload a n d) = .instr (.readRsp a n d) := by
  simp [readRspPayload, decodePayload, h]

theorem decodePayload_writeReq (a : Addr) {d : List Byte} (h : d.length ≤ 255) :
    decodePayload (writeReqPayload a (byteOfNat d.length) d) = .instr (.writeReq a d) := by
  simp [writeReqPayload, decodePayload, byteOfNat_toNat _ h]

theorem decodePayload_writeRsp (a : Addr) (n : Byte) :
    decodePayload (writeRspPayload a n) = .instr (.writeRsp a n) := by
  simp [writeRspPayload, decodePayload]

/-- Settles O1: the control bytes compute; a frame is cut at its length byte, a payload at its `SZ`. -/
theorem decodeInvertsEncode : Obligations.DecodeInvertsEncode := by
  intro i sl l hwf hslot henc
  cases i with
  | wake | wakeAck | sync | syncAck | ack | nak => cases hslot; cases henc; rfl
  | reqFrame p => cases hslot; cases henc; exact decode_frameOf p (by simpa [Instr.wf] using hwf)
  | respFrame p ck =>
    cases hslot; cases henc
    exact decodeFrame_payload (fun q c => .instr (.respFrame q c)) ck (by simpa [Instr.wf] using hwf)
  | readReq a n => cases hslot; cases henc; exact decodePayload_readReq a n
  | readRsp a n d =>
    cases hslot; cases henc
    simp only [Instr.wf, Bool.and_eq_true, decide_eq_true_eq] at hwf
    exact decodePayload_readRsp a hwf.2
  | writeReq a d =>
    cases hslot; cases henc
    simp only [Instr.wf, decide_eq_true_eq] at hwf
    exact decodePayload_writeReq a (by omega)
  | writeRsp a n => cases hslot; cases henc; exact decodePayload_writeRsp a n
  | _ => cases hslot

/-- Settles O3: the decoder is run on each of the twelve words. -/
theorem writtenWordsDecode : Obligations.WrittenWordsDecode := by
  unfold Obligations.WrittenWordsDecode
  decide

/-- A slot of one byte holds exactly that byte. -/
theorem decodeOne_instr {f : Byte → Decoded} {l : List Byte} {i : Instr} (h : decodeOne f l = .instr i) :
    ∃ b, l = [b] ∧ f b = .instr i := by
  unfold decodeOne at h
  split at h
  · cases h
  · exact ⟨_, rfl, h⟩
  · cases h

/-- A payload that decodes is that of one of the four register messages, with as many data bytes as its `SZ`
says where it has data (R58 to R61). -/
theorem decodePayload_instr {p : List Byte} {i : Instr} (h : decodePayload p = .instr i) :
    (∃ a n, i = .readReq a n ∧ p = readReqPayload a n) ∨
    (∃ a n d, i = .readRsp a n d ∧ p = readRspPayload a n d) ∨
    (∃ a d, i = .writeReq a d ∧ p = writeReqPayload a (byteOfNat d.length) d) ∨
    (∃ a n, i = .writeRsp a n ∧ p = writeRspPayload a n) := by
  unfold decodePayload at h
  split at h
  case h_2 => cases h
  case h_1 msg acc ah al sz data =>
    have hah : hi (addrOf ah al) = ah := hi_addrOf ah al
    have hal : lo (addrOf ah al) = al := lo_addrOf ah al
    split_ifs at h with hsel hd hsel hd hsel hd hsel hd <;> cases h <;> obtain ⟨rfl, rfl⟩ := hsel
    · exact .inl ⟨_, _, rfl, by simp [readReqPayload, hd]⟩
    · exact .inr (.inl ⟨_, _, _, rfl, by simp [readRspPayload]⟩)
    · exact .inr (.inr (.inl ⟨_, _, rfl, by simp [writeReqPayload, hd]⟩))
    · exact .inr (.inr (.inr ⟨_, _, rfl, by simp [writeRspPayload, hd]⟩))

/-- Settles O2: in each slot the bytes that decode are those of the message, by the slot's own inversion. -/
theorem encodeInvertsDecode : Obligations.EncodeInvertsDecode := by
  intro i sl l h
  cases sl with
  | wakeTx | wakeRx | syncRx =>
    obtain ⟨b, rfl, hb⟩ := decodeOne_instr h
    split_ifs at hb with hc
    cases hb
    exact ⟨rfl, by rw [hc]; rfl⟩
  | rxAck =>
    obtain ⟨b, rfl, hb⟩ := decodeOne_instr h
    split_ifs at hb with hack hnak <;> cases hb
    · exact ⟨rfl, by rw [hack]; rfl⟩
    · exact ⟨rfl, by rw [hnak]; rfl⟩
  | syncTx =>
    simp only [decode] at h
    split_ifs at h with hc
    cases h
    exact ⟨rfl, by rw [hc]; rfl⟩
  | txFrame =>
    obtain ⟨p, rfl, -, rfl⟩ := decode_txFrame l i h
    exact ⟨rfl, rfl⟩
  | rxFrame =>
    obtain ⟨p, ck, rfl, -, rfl⟩ := decode_rxFrame l i h
    exact ⟨rfl, rfl⟩
  | payload =>
    obtain ⟨a, n, rfl, rfl⟩ | ⟨a, n, d, rfl, rfl⟩ | ⟨a, d, rfl, rfl⟩ | ⟨a, n, rfl, rfl⟩ :=
      decodePayload_instr h <;> exact ⟨rfl, rfl⟩

end Sys2Proof.Machine
end

section
namespace Sys2Proof.Machine

/-! ### The frame of a request, and the frame start (R74, R76, R82) -/

/-- The checksum byte is the length and the payload's bytes summed, mod 256 (R72). -/
theorem checksum_toNat {p : List Byte} (h : p.length ≤ 255) :
    (checksum (byteOfNat p.length) p).toNat = (p.length + (p.map BitVec.toNat).sum) % 256 := by
  rw [checksum, byteOfNat_toNat _ h, BitVec.toNat_ofNat, byteSum]
  exact Nat.mod_mod _ _

/-- The three request messages are all the sending of their payload as a frame (R58, R60, R74; log 27). -/
theorem exec_request {i : Instr} {p : List Byte} (s : State) (hl : p.length ≤ 100)
    (h : i = .reqFrame p ∨ (∃ addr size, i = .readReq addr size ∧ p = readReqPayload addr size) ∨
      (∃ addr data, i = .writeReq addr data ∧ p = writeReqPayload addr (byteOfNat data.length) data)) :
    exec i s = .next (sendFrame p s) := by
  obtain rfl | ⟨addr, size, rfl, rfl⟩ | ⟨addr, data, rfl, rfl⟩ := h
  · rfl
  · rfl
  · have hreg : sizeReg data.length = byteOfNat data.length :=
      if_pos (by simp [writeReqPayload] at hl; omega)
    rw [← hreg]
    rfl

/-- Settles O19: by `exec_request`, and what sending a frame that the port accepts whole does. -/
theorem requestFrameTransmitted : Obligations.RequestFrameTransmitted := by
  intro s i p hi hl ha
  refine ⟨checksum (byteOfNat p.length) p, checksum_toNat (by omega), ?_⟩
  rw [exec_request s hl hi, sendFrame_ok s p hl ha]
  rfl

/-- In `RX_START` 41 goes on to `RX_LEN` (R76). -/
theorem startStep_start {s : State} (h : s.readBytes 1 = [Config.startByte]) :
    startStep s = { rxRead 1 s with startByte := Config.startByte, phase := .rxLen } := by
  simp [startStep, h]

/-- Another byte, which stands in `start_byte` then, or none, is `MissingFrameStart` (R76, R113). -/
theorem startStep_missing {s : State} (h : s.readBytes 1 ≠ [Config.startByte]) :
    startStep s = raise (failFrameStart (s.readBytes 1).head?)
      { rxRead 1 s with startByte := (s.readBytes 1).headD s.startByte } := by
  obtain hr | ⟨b, hr⟩ := readBytes_one s
  · simp only [startStep, hr]
    rfl
  · have hb : b ≠ Config.startByte := fun e => h (by rw [hr, e])
    simp only [startStep, hr, if_pos hb]
    rfl

/-- The receiving slots of one byte, each byte by byte (R63, R64). -/
theorem decode_received (b : Byte) :
    (decode .wakeRx [b]).instr? = (if b = 0x05 then some .wakeAck else none) ∧
    (decode .syncRx [b]).instr? = (if b = 0x06 then some .syncAck else none) ∧
    (decode .rxAck [b]).instr? =
      (if b = 0x06 then some .ack else if b = 0x15 then some .nak else none) := by
  refine ⟨?_, ?_, ?_⟩
  · exact apply_ite Decoded.instr? _ _ _
  · exact apply_ite Decoded.instr? _ _ _
  · exact (apply_ite Decoded.instr? _ _ _).trans (congrArg _ (apply_ite Decoded.instr? _ _ _))

/-- Settles O4: the decoder by cases on the byte, `RX_START` by the byte its read gave. -/
theorem receivedBytesSelected : Obligations.ReceivedBytesSelected := by
  refine ⟨fun b => ?_, fun s hp ht hr => ⟨tick s, step_eq_tick s hr, ?_⟩⟩
  · obtain ⟨hwake, hsync, hack⟩ := decode_received b
    exact ⟨hwake, hsync, hack, rfl, rfl, rfl⟩
  · rw [tick, advance_rxStart s (by simp [ht]) hp]
    refine ⟨fun h => ?_, fun h => ?_⟩
    · rw [startStep_start h]
      simp [ht, Config.startByte]
    · rw [(startStep_missing h).trans (raise_local _ _ (.inl ht))]
      simp [failFrameStart, Result.errOf]

end Sys2Proof.Machine
end

section
namespace Sys2Proof.Machine

/-! ### What the line carries under host commands (R63, R65) -/

@[simp] theorem legal_rx (n : Nat) (r : List Byte) : (Event.rx n r).legal := trivial
@[simp] theorem legal_flush : Event.flush.legal := trivial
@[simp] theorem legal_portOpen (path : String) (ok : Bool) : (Event.portOpen path ok).legal := trivial
@[simp] theorem legal_portClose : Event.portClose.legal := trivial
@[simp] theorem legal_wake (c : Nat) : (Event.tx [Config.wakeByte] c).legal := .inl rfl
@[simp] theorem legal_sync (c : Nat) : (Event.tx Config.syncCmd c).legal := .inr (.inl rfl)

theorem legal_frame {p : List Byte} (h : isCommand p) (c : Nat) : (Event.tx (frameOf p) c).legal :=
  .inr (.inr ⟨p, h, rfl⟩)

/-- Every interaction so far was a legal one. -/
def State.sentLegal (s : State) : Prop := ∀ e ∈ s.trace, e.legal

/-- One more legal interaction. -/
theorem State.sentLegal.snoc {s t : State} (h : s.sentLegal) {e : Event} (he : e.legal)
    (ht : t.trace = s.trace ++ [e]) : t.sentLegal := by
  intro x hx
  rw [ht, List.mem_append, List.mem_singleton] at hx
  obtain hx | rfl := hx
  · exact h x hx
  · exact he

/-- The phases in which a frame is about to be built or sent (R82). -/
def Phase.sendsFrame (p : Phase) : Bool := decide (p = .txFlush ∨ p = .txFrame)

/-- A host command runs, and the line has carried legal messages only. -/
def State.hostRuns (s : State) : Prop := s.task.ofHost ∧ s.task ≠ .idle ∧ s.sentLegal

theorem State.hostRuns.host {s : State} (h : s.hostRuns) : s.task.ofHost := h.1

theorem State.hostRuns.sent {s : State} (h : s.hostRuns) : s.sentLegal := h.2.2

/-- One more legal interaction of a running command. -/
theorem State.hostRuns.snoc {s t : State} (h : s.hostRuns) {e : Event} (he : e.legal)
    (htask : t.task = s.task) (ht : t.trace = s.trace ++ [e]) : t.hostRuns := by
  obtain ⟨hhost, hrun, hsent⟩ := h
  exact ⟨htask ▸ hhost, htask ▸ hrun, hsent.snoc he ht⟩

theorem State.hostRuns.rxRead {s : State} (h : s.hostRuns) (n : Nat) : (rxRead n s).hostRuns :=
  h.snoc (legal_rx n _) rfl rfl

/-! Where no frame is about to be sent, legality is that of the trace. -/

theorem lineLegal_of_sent {t : State} (ht : t.task.ofHost) (hs : t.sentLegal) (hp : t.phase.sendsFrame = false) :
    t.lineLegal := by
  obtain ⟨hflush, hframe⟩ : t.phase ≠ .txFlush ∧ t.phase ≠ .txFrame := by
    simpa [Phase.sendsFrame] using hp
  exact ⟨ht, hs, fun h => absurd h hflush, fun h => absurd h hframe⟩

theorem State.sentLegal.finishCmd {s : State} (h : s.sentLegal) (r : Result) : (finishCmd r s).lineLegal :=
  lineLegal_of_sent trivial h rfl

theorem State.sentLegal.finishOp {s : State} (h : s.sentLegal) (r : Result) (hp : s.phase.sendsFrame = false) :
    (finishOp r s).lineLegal :=
  lineLegal_of_sent trivial h hp

theorem State.hostRuns.goesTo {s : State} (h : s.hostRuns) (q : Phase) (hq : q.sendsFrame = false) :
    ({ s with phase := q } : State).lineLegal :=
  lineLegal_of_sent h.host h.sent hq

/-- An error under a host command ends it, or has OPEN release the port (R104, R114). -/
theorem State.hostRuns.raise {s : State} (h : s.hostRuns) (e : Fail) : (raise e s).lineLegal := by
  obtain ⟨hhost, hrun, hsent⟩ := h
  unfold Machine.raise
  split
  · exact lineLegal_of_sent trivial hsent rfl
  · exact State.sentLegal.finishCmd (s := { s with sweepMap := [] }) hsent _
  · exact hsent.finishCmd _
  · exact hsent.finishCmd _
  · exact hsent.finishCmd _
  · cases hk : s.task <;> simp_all [Task.ofHost]

/-! ### The frames of register commands -/

theorem isCommand_length {p : List Byte} (h : isCommand p) : p.length ≤ 100 := by
  obtain ⟨a, n, -, -, rfl⟩ | ⟨a, d, hd, rfl⟩ := h
  · simp [readReqPayload]
  · simp [writeReqPayload]
    omega

/-- Only an `EXECUTE` run on its own sends another payload than the request registers' (R82, R84). -/
theorem txPayload_read {s : State} (h : s.task.ofHost) (hk : s.reqKind = .read) :
    s.txPayload = readReqPayload s.reqAddr s.reqSize := by
  cases ht : s.task with
  | execute p => simp [ht, Task.ofHost] at h
  | _ => simp [State.txPayload, ht, hk]

theorem txPayload_write {s : State} (h : s.task.ofHost) (hk : s.reqKind = .write) :
    s.txPayload = writeReqPayload s.reqAddr s.reqSize s.callData := by
  cases ht : s.task with
  | execute p => simp [ht, Task.ofHost] at h
  | _ => simp [State.txPayload, ht, hk]

/-- A read that passed the size check is a command (R58, R84). -/
theorem State.hostRuns.startRead {s : State} (h : s.hostRuns) (addr : Addr) (size : Int) :
    (startRead addr size s).lineLegal := by
  unfold Machine.startRead
  split
  · exact h.raise _
  · have hsize : ((BitVec.ofInt 8 size).toNat : Int) = size := by rw [BitVec.toNat_ofInt]; omega
    obtain ⟨hhost, -, hsent⟩ := h
    exact ⟨hhost, hsent,
      fun _ _ => .inl ⟨addr, BitVec.ofInt 8 size, by omega, by omega, txPayload_read hhost rfl⟩, nofun⟩

/-- A write that `BUILD` will not refuse has at most 95 data bytes, and is a command (R60, R86). -/
theorem State.hostRuns.startWrite {s : State} (h : s.hostRuns) (addr : Addr) (data : List Byte) :
    (startWrite addr data s).lineLegal := by
  obtain ⟨hhost, -, hsent⟩ := h
  have hpay : (Machine.startWrite addr data s).txPayload
      = writeReqPayload addr (sizeReg data.length) data := txPayload_write hhost rfl
  refine ⟨hhost, hsent, fun _ hl => ?_, nofun⟩
  have hd : data.length ≤ 95 := by
    simp [hpay, writeReqPayload] at hl
    omega
  exact .inr ⟨addr, data, hd, by rw [hpay, sizeReg, if_pos (by omega)]⟩

/-! ### Each phase under a host command -/

variable {s : State}

theorem State.hostRuns.openPortStep (h : s.hostRuns) : (openPortStep s).lineLegal := by
  unfold Machine.openPortStep
  split
  · rename_i path _
    split
    · have hg : (portGrant path s).hostRuns := h.snoc (legal_portOpen path true) rfl rfl
      exact hg.goesTo .hsWakeTx rfl
    · have hr : (portRefuse path s).hostRuns := h.snoc (legal_portOpen path false) rfl rfl
      exact hr.sent.finishCmd _
  · exact h.goesTo .idle rfl

theorem State.hostRuns.wakeHead (h : s.hostRuns) : (wakeHead s).lineLegal := by
  unfold Machine.wakeHead
  split
  · exact h.raise _
  · exact h.goesTo .hsWakeTx rfl

theorem State.hostRuns.wakeSend (h : s.hostRuns) : (wakeSend s).lineLegal := by
  unfold Machine.wakeSend
  split
  · exact h.raise _
  · have hw : (txWrite [Config.wakeByte] s).hostRuns := h.snoc (legal_wake _) rfl rfl
    exact hw.goesTo .hsWakeRx rfl

theorem State.hostRuns.syncSend (h : s.hostRuns) : (syncSend s).lineLegal := by
  have hw : (txWrite Config.syncCmd s).hostRuns := h.snoc (legal_sync _) rfl rfl
  exact hw.goesTo .hsSyncRx rfl

theorem State.hostRuns.syncAcked (h : s.hostRuns) (hp : s.phase = .hsSyncRx) : (syncAcked s).lineLegal := by
  have hready : ({ s with link := .ready } : State).hostRuns := h
  unfold Machine.syncAcked
  split
  · exact hready.sent.finishCmd _
  · exact hready.sent.finishOp _ (by rw [hp]; rfl)

/-- `BUILD` leaves the frame of the command the transaction is about (R74, R82). -/
theorem State.lineLegal.flushStep (h : s.lineLegal) (hr : s.hostRuns) (hp : s.phase = .txFlush) :
    (flushStep s).lineLegal := by
  obtain ⟨-, -, hpay, -⟩ := h
  have hf : (rxFlush s).hostRuns := hr.snoc legal_flush rfl rfl
  unfold Machine.flushStep
  dsimp only
  split
  · exact hf.raise _
  · rename_i hl
    obtain ⟨hhost, -, hsent⟩ := hf
    rw [buildFrame_eq]
    refine ⟨hhost, hsent, nofun, fun _ _ => ⟨s.txPayload, hpay hp ?_, rfl⟩⟩
    simpa [tooLarge, Config.maxTxPayload] using hl

/-- A command's frame is offered to the transmitter, and the ACK is awaited (R82). -/
theorem State.hostRuns.requestSent (h : s.hostRuns) {p : List Byte} (hc : isCommand p) :
    (requestSent p s).lineLegal := by
  have hsmall : tooLarge p = false := by simpa [tooLarge, Config.maxTxPayload] using isCommand_length hc
  unfold Machine.requestSent sendFrame
  rw [hsmall, if_neg (by simp), buildFrame_eq]
  have hw : (txWrite (frameOf p) { s with
      acc := checksum (byteOfNat p.length) p, txbuf := frameOf p, phase := .txFrame }).hostRuns :=
    h.snoc (legal_frame hc _) rfl rfl
  unfold transmit
  dsimp only
  split
  · exact hw.raise _
  · exact hw.goesTo .rxAck rfl

theorem State.hostRuns.ackMissed (h : s.hostRuns) (r : List Byte) : (ackMissed r s).lineLegal := by
  unfold Machine.ackMissed
  split
  · exact h.raise _
  · rename_i b _
    exact State.hostRuns.raise (s := { s with ackByte := b }) h _

theorem State.hostRuns.startStep (h : s.hostRuns) : (startStep s).lineLegal := by
  unfold Machine.startStep
  split
  · exact (h.rxRead 1).raise _
  · rename_i b _ _
    have hb : ({ Machine.rxRead 1 s with startByte := b } : State).hostRuns := h.rxRead 1
    split
    · exact hb.raise _
    · exact hb.goesTo .rxLen rfl

theorem State.hostRuns.lenStep (h : s.hostRuns) : (lenStep s).lineLegal := by
  unfold Machine.lenStep
  split
  · exact (h.rxRead 1).raise _
  · rename_i b _ _
    have hb : ({ Machine.rxRead 1 s with declaredSize := b } : State).hostRuns := h.rxRead 1
    exact hb.goesTo .rxBody rfl

theorem State.hostRuns.bodyStep (h : s.hostRuns) : (bodyStep s).lineLegal := by
  have hb (r : Option (List Byte)) : ({ Machine.rxRead (s.declaredSize.toNat + 1) s with
      rxbuf := s.readBytes (s.declaredSize.toNat + 1), rsp := r } : State).hostRuns := h.rxRead _
  unfold Machine.bodyStep
  dsimp only
  split
  · exact (hb s.rsp).raise _
  · exact (hb none).goesTo .check rfl

theorem State.hostRuns.parseReturn (h : s.hostRuns) (hp : s.phase.sendsFrame = false) (p : List Byte) :
    (parseReturn p s).lineLegal := by
  have hstays : ({ s with rsp := some p } : State).lineLegal := lineLegal_of_sent h.host h.sent hp
  unfold Machine.parseReturn
  split
  · exact hstays
  · exact hstays
  · exact hstays
  · exact hstays
  · exact h.sent.finishOp _ hp

theorem State.hostRuns.checkFrame (h : s.hostRuns) : (checkFrame s).lineLegal := by
  have hc (a : Byte) : ({ s with phase := .check, acc := a } : State).hostRuns := h
  unfold Machine.checkFrame
  simp only [ckRun_eq]
  split
  · exact (hc _).raise _
  · split
    · exact (hc _).raise _
    · exact (hc _).parseReturn rfl _

theorem State.hostRuns.readReturn (h : s.hostRuns) (hp : s.phase.sendsFrame = false) (rsp : List Byte) :
    (readReturn rsp s).lineLegal := by
  unfold Machine.readReturn
  split
  · exact State.hostRuns.goesTo (s := { s with rsp := some rsp }) h .decode rfl
  · exact h.sent.finishOp _ hp

theorem State.hostRuns.writeReturn (h : s.hostRuns) (hp : s.phase.sendsFrame = false) :
    (writeReturn s).lineLegal := by
  unfold Machine.writeReturn
  split
  · exact h.sent.finishCmd _
  · exact h.sent.finishOp _ hp

theorem State.hostRuns.echoCheck (h : s.hostRuns) (hp : s.phase.sendsFrame = false) (rsp : List Byte) :
    (echoCheck rsp s).lineLegal := by
  unfold Machine.echoCheck
  split <;> split
  · exact h.raise _
  · exact h.readReturn hp rsp
  · exact h.raise _
  · exact h.writeReturn hp

theorem State.sentLegal.finishSweep (h : s.sentLegal) : (finishSweep s).lineLegal :=
  State.sentLegal.finishCmd (s := { s with sweepMap := addDerived s.sweepMap }) h _

/-- The sweep's next frame is a read of the entry, or the sweep ends (R105). -/
theorem State.hostRuns.sweepEntry (h : s.hostRuns) (i : Nat) : (sweepEntry i s).lineLegal := by
  unfold Machine.sweepEntry
  split
  · exact h.sent.finishSweep
  · exact State.hostRuns.startRead (s := { s with sweepIdx := i }) h _ _

theorem State.hostRuns.decodeStep (h : s.hostRuns) : (decodeStep s).lineLegal := by
  unfold Machine.decodeStep
  split
  · refine State.hostRuns.sweepEntry ?_ _
    exact h
  · exact h.sent.finishSweep

theorem State.sentLegal.closePortStep (h : s.sentLegal) : (closePortStep s).lineLegal := by
  have hc : (portClose s).sentLegal := h.snoc legal_portClose rfl
  unfold Machine.closePortStep
  split <;> exact hc.finishCmd _

/-- A command accepted at `IDLE` ends at once or begins under its own task (R103). -/
theorem State.sentLegal.acceptCmd (h : s.sentLegal) (c : HostCmd) : (acceptCmd c s).lineLegal := by
  cases c with
  | openCmd path =>
    simp only [Machine.acceptCmd, acceptOpen]
    split
    · exact h.finishCmd _
    · exact lineLegal_of_sent trivial h rfl
  | getMeasurements =>
    simp only [Machine.acceptCmd, acceptSweep]
    split
    · exact h.finishCmd _
    · exact State.hostRuns.sweepEntry (s := { s with task := .sweeping, sweepMap := [] })
        ⟨trivial, by simp, h⟩ 0
  | writeValue name v =>
    simp only [Machine.acceptCmd, acceptWrite]
    split
    · exact h.finishCmd _
    · split
      · exact h.finishCmd _
      · split
        · split
          · exact h.finishCmd _
          · exact State.hostRuns.startWrite (s := { s with task := .writing }) ⟨trivial, by simp, h⟩ _ _
        · exact h.finishCmd _
  | closeCmd =>
    simp only [Machine.acceptCmd, acceptClose]
    split
    · exact h.finishCmd _
    · exact lineLegal_of_sent trivial h rfl

/-! ### Every step keeps the line legal -/

/-- A running host command, phase by phase. -/
theorem State.lineLegal.advance_running (h : s.lineLegal) (ht : s.task ≠ .idle) (hi : s.phase ≠ .idle) :
    (advance s).lineLegal := by
  obtain ⟨hhost, hsent, -, hframe⟩ := id h
  have hr : s.hostRuns := ⟨hhost, ht, hsent⟩
  have hread := hr.rxRead 1
  cases hp : s.phase with
  | idle => exact absurd hp hi
  | openPort => rw [advance_openPort s ht hp]; exact hr.openPortStep
  | hsWakeTx => rw [advance_hsWakeTx s ht hp]; exact hr.wakeSend
  | hsWakeRx =>
    rw [advance_hsWakeRx s ht hp]
    split
    · exact hread.goesTo .hsSyncTx rfl
    · exact State.hostRuns.wakeHead (s := { rxRead 1 s with wakeLast := (s.readBytes 1).head? }) hread
  | hsSyncTx => rw [advance_hsSyncTx s ht hp]; exact hr.syncSend
  | hsSyncRx =>
    rw [advance_hsSyncRx s ht hp]
    split
    · exact hread.syncAcked hp
    · exact hread.raise _
  | txFlush => rw [advance_txFlush s ht hp]; exact h.flushStep hr hp
  | txFrame =>
    obtain ⟨p, hc, hb⟩ := hframe hp ht
    rw [advance_txFrame s p ht hp (isCommand_length hc) hb]
    exact hr.requestSent hc
  | rxAck =>
    rw [advance_rxAck s ht hp]
    split
    · exact hread.goesTo .rxStart rfl
    · split
      · exact State.hostRuns.raise (s := { rxRead 1 s with ackByte := Config.nakByte }) hread _
      · exact hread.ackMissed _
  | rxStart => rw [advance_rxStart s ht hp]; exact hr.startStep
  | rxLen => rw [advance_rxLen s ht hp]; exact hr.lenStep
  | rxBody => rw [advance_rxBody s ht hp]; exact hr.bodyStep
  | check =>
    have hq : s.phase.sendsFrame = false := by rw [hp]; rfl
    cases hrsp : s.rsp with
    | none => rw [advance_check s ht hp hrsp]; exact hr.checkFrame
    | some p => rw [advance_echo s p ht hp hrsp]; exact hr.echoCheck hq p
  | decode => rw [advance_decode s ht hp]; exact hr.decodeStep
  | closePort => rw [advance_closePort s ht hp]; exact State.sentLegal.closePortStep hsent

theorem State.lineLegal.advance (h : s.lineLegal) : (advance s).lineLegal := by
  obtain ⟨hhost, hsent, -, -⟩ := id h
  by_cases hi : s.phase = .idle
  · rw [advance_idle s hi]
    unfold idleStep
    split
    · exact h
    · rename_i c cs _
      exact State.sentLegal.acceptCmd (s := { s with hostq := cs }) hsent c
  · by_cases ht : s.task = .idle
    · rw [advance_stray s ht hi]
      exact lineLegal_of_sent hhost hsent rfl
    · exact h.advance_running ht hi

/-- The peer's bytes are not the block's (R34). -/
theorem State.lineLegal.endStep (h : s.lineLegal) : (endStep s).lineLegal := by
  simpa [State.lineLegal, State.txPayload] using h

theorem applyReset_lineLegal (h : s.sentLegal) : (applyReset s).lineLegal := by
  refine lineLegal_of_sent trivial ?_ ?_
  · by_cases hp : s.portHeld
    · exact h.snoc legal_portClose (by simp [applyReset, hp])
    · intro e he
      exact h e (by simpa [applyReset, hp] using he)
  · rfl

end Sys2Proof.Machine
end

section
namespace Sys2Proof.Machine

/-- Settles O57: a step is a reset or one step of the sequencer, which in each phase adds at most one legal
interaction and goes to a sending phase only with a command. -/
theorem onlyLegalMessagesSent : Obligations.OnlyLegalMessagesSent := by
  intro s t h hs
  obtain hr | ⟨l, hr⟩ := step_cases s <;> rw [hr] at hs <;> cases hs
  · obtain ⟨-, hsent, -⟩ := h
    exact applyReset_lineLegal hsent
  · have hdue : ({ s with resetIn := l } : State).lineLegal := h
    exact hdue.advance.endStep

end Sys2Proof.Machine
end

section
namespace Sys2Proof.Machine

/-! ### The messages of the handshake (R68, R69) -/

section
variable {s : State}

/-- Before the eleventh attempt the wake loop goes on (R68). -/
theorem wakeHead_of_lt (h : s.wakeCount < 10) : wakeHead s = { s with phase := .hsWakeTx } :=
  if_neg (Nat.not_le.2 h)

theorem wakeHead_of_le (h : 10 ≤ s.wakeCount) : wakeHead s = raise (failNoHandshake s.wakeLast) s := if_pos h

theorem wakeSend_of_lt (h : s.wakeCount < 10) :
    wakeSend s = { txWrite [0x04] s with wakeCount := s.wakeCount + 1, phase := .hsWakeRx } :=
  if_neg (Nat.not_le.2 h)

theorem wakeSend_of_le (h : 10 ≤ s.wakeCount) : wakeSend s = raise (failNoHandshake s.wakeLast) s := if_pos h

/-- Inside OPEN an error leads to the release of the port (R104). -/
theorem raise_opening (e : Fail) {path : String} (ht : s.task = .opening path) :
    raise e s = { writeErr e s with phase := .closePort, task := .releasing e } := by
  simp only [raise, ht]

/-- An error of HANDSHAKE on its own is its result and stands in `err` (R10, R25). -/
theorem raise_handshake (e : Fail) (ht : s.task = .handshake) :
    raise e s = finishOp (.err { fail := e }) (writeErr e s) := by
  simp only [raise, ht]

theorem syncAcked_opening {path : String} (ht : s.task = .opening path) :
    syncAcked s = finishCmd (.ok .unit) { s with link := .ready } := by
  simp only [syncAcked, ht]

theorem syncAcked_handshake (ht : s.task = .handshake) :
    syncAcked s = finishOp (.ok .unit) { s with link := .ready } := by
  simp only [syncAcked, ht]

end

/-- Settles O10: under ten attempts the wake byte goes out, at ten the error is raised under either task. -/
theorem wakeAttempt : Obligations.WakeAttempt := by
  refine fun s => ⟨fun h => congrArg _ (wakeSend_of_lt h), ?_⟩
  rintro e rfl h
  exact ⟨fun ht => congrArg _ ((wakeSend_of_le h).trans (raise_handshake _ ht)),
    fun path ht => congrArg _ ((wakeSend_of_le h).trans (raise_opening _ ht))⟩

/-- Settles O11: the meanings of the two messages, as the model writes them. -/
theorem syncFollowsWakeAck : Obligations.SyncFollowsWakeAck := fun _ => ⟨rfl, rfl⟩

/-- Settles O12: `syncAcked` under each of the two tasks, OPEN's and HANDSHAKE's own. -/
theorem syncAckMakesReady : Obligations.SyncAckMakesReady :=
  fun _ => ⟨fun _ ht => congrArg _ (syncAcked_opening ht), fun ht => congrArg _ (syncAcked_handshake ht)⟩

end Sys2Proof.Machine
end

section
namespace Sys2Proof.Machine

/-! ### The steps of the handshake, driven -/

/-- The end of a step does not touch what an error reads or writes. -/
theorem endStep_raise (e : Fail) (s : State) : endStep (raise e s) = raise e (endStep s) := by
  rcases hs : s.script with _ | ⟨d, ds⟩ <;> cases ht : s.task <;>
    simp [raise, endStep, State.afterDraw, State.nextDraw, hs, ht, writeErr, finishCmd, finishOp,
      State.sweepName]

theorem endStep_withPhase (p : Phase) (s : State) :
    { endStep s with phase := p } = endStep { s with phase := p } := by
  simp only [endStep, State.afterDraw, State.nextDraw]
  split <;> rfl

theorem endStep_withWakeLast (r : Option Byte) (s : State) :
    { endStep s with wakeLast := r } = endStep { s with wakeLast := r } := by
  simp only [endStep, State.afterDraw, State.nextDraw]
  split <;> rfl

theorem endStep_wakeHead (s : State) : endStep (wakeHead s) = wakeHead (endStep s) := by
  by_cases h : s.wakeCount < 10
  · rw [wakeHead_of_lt h, wakeHead_of_lt (by simpa using h), endStep_withPhase]
  · have h10 : 10 ≤ s.wakeCount := Nat.not_lt.1 h
    rw [wakeHead_of_le h10, wakeHead_of_le (by simpa using h10), endStep_raise, endStep_wakeLast]

theorem endStep_wakeMissed (r : List Byte) (s : State) :
    endStep (wakeMissed r s) = wakeMissed r (endStep s) := by
  rw [wakeMissed, endStep_wakeHead, wakeMissed, endStep_withWakeLast]

theorem endStep_wakeAcked (s : State) : endStep (wakeAcked s) = wakeAcked (endStep s) :=
  (endStep_withPhase .hsSyncTx { s with wakeLast := some Config.wakeAckByte }).symm.trans
    (congrArg (fun t : State => { t with phase := .hsSyncTx }) (endStep_withWakeLast _ s).symm)

/-- The state in which the answer of a wake attempt is awaited (R68). -/
def wakeAwaited (s : State) : State := endStep (wakeSend s)

/-- The state after a wake attempt, its answer read (R68). -/
def wakeRead (s : State) : State := endStep (rxRead 1 (wakeAwaited s))

section
variable {s : State} (n : Nat) (ht : s.task ≠ .idle)
include ht

/-- One wake attempt, in two steps: 0x05 leaves the loop, anything else goes back to its head (R68). -/
theorem drive_wakeHead (h : s.wakeCount < 10) :
    drive (n + 2) (wakeHead s) = drive n
      (if (wakeAwaited s).readBytes 1 = [0x05] then wakeAcked (wakeRead s)
       else wakeMissed ((wakeAwaited s).readBytes 1) (wakeRead s)) := by
  have hsend : tick (wakeHead s) = wakeAwaited s := by
    rw [wakeHead_of_lt h, tick, advance_hsWakeTx { s with phase := .hsWakeTx } ht rfl,
      wakeSend_of_lt (s := { s with phase := .hsWakeTx }) h, wakeAwaited, wakeSend_of_lt h]
    rfl
  have hrun : (wakeAwaited s).task ≠ .idle := by simpa [wakeAwaited, wakeSend_of_lt h] using ht
  have hphase : (wakeAwaited s).phase = .hsWakeRx := by simp [wakeAwaited, wakeSend_of_lt h]
  rw [drive_more _ _ (by simpa [wakeHead_of_lt h] using ht), hsend, drive_more _ _ hrun, tick,
    advance_hsWakeRx _ hrun hphase, apply_ite endStep, endStep_wakeAcked, endStep_wakeMissed, wakeRead]

/-- The sync command is sent (R69). -/
theorem drive_hsSyncTx (hp : s.phase = .hsSyncTx) : drive (n + 1) s = drive n (endStep (syncSend s)) := by
  rw [drive_more _ _ ht, tick, advance_hsSyncTx _ ht hp]

/-- The answer to the sync command (R69). -/
theorem drive_hsSyncRx (hp : s.phase = .hsSyncRx) :
    drive (n + 1) s = drive n (endStep (if s.readBytes 1 = [0x06] then syncAcked (rxRead 1 s)
      else syncMissed (s.readBytes 1) (rxRead 1 s))) := by
  rw [drive_more _ _ ht, tick, advance_hsSyncRx _ ht hp]

end

/-- HANDSHAKE on its own, as its steps (R67). -/
theorem exec_handshake (s : State) :
    exec .handshake s = .next
      { drive (40 + 9 * s.registry.length) (startHandshake { s with task := .handshake }) with task := s.task } :=
  rfl

/-! ### The interactions of the wake loop -/

/-- What each wake attempt, made of the count the port accepts and the bytes read, puts in the trace (R68). -/
def wakeEvents (l : List (Nat × List Byte)) : List Event := l.flatMap fun a => [.tx [0x04] a.1, .rx 1 a.2]

/-- Each attempt is one `TxWrite`, of the wake byte, and one `RxRead`, of one byte. -/
theorem wakeEvents_mem {l : List (Nat × List Byte)} {e : Event} (h : e ∈ wakeEvents l) :
    (∃ c, e = .tx [0x04] c) ∨ ∃ r, e = .rx 1 r := by
  obtain ⟨a, -, he⟩ := List.mem_flatMap.1 h
  rcases List.mem_pair.1 he with rfl | rfl
  · exact .inl ⟨_, rfl⟩
  · exact .inr ⟨_, rfl⟩

theorem countP_wakeEvents (p : Event → Bool) (m : Nat) (h : ∀ c r, [Event.tx [0x04] c, .rx 1 r].countP p = m)
    (l : List (Nat × List Byte)) : (wakeEvents l).countP p = l.length * m := by
  simp only [wakeEvents, List.countP_flatMap, Function.comp_def, h, List.map_const', List.sum_replicate,
    smul_eq_mul]

/-! ### The handshake against a script -/

/-- A state s with the handshake's registers, its interactions so far and the rest of its script written
anew: every state of a handshake that started in s. -/
def State.midHandshake (s : State) (p : Phase) (count : Nat) (last : Option Byte) (events : List Event)
    (script : List Draw) : State :=
  { s with phase := p, wakeCount := count, wakeLast := last, trace := s.trace ++ events, script := script }

theorem startHandshake_midHandshake (s : State) :
    startHandshake s = wakeHead (s.midHandshake s.phase 0 none [] s.script) := by
  simp [startHandshake, State.midHandshake]

section
variable {s : State} {p : Phase} {k : Nat} {last : Option Byte} {ev : List Event} {d : Draw} {ds : List Draw}

theorem endStep_midHandshake (h : d.late = []) :
    endStep (s.midHandshake p k last ev (d :: ds)) = s.midHandshake p k last ev ds :=
  endStep_quiet (s.midHandshake p k last ev (d :: ds)) d ds rfl h

theorem txWrite_midHandshake (l : List Byte) (h : d.arrive = []) :
    txWrite l (s.midHandshake p k last ev (d :: ds)) =
      s.midHandshake p k last (ev ++ [.tx l (min d.accept l.length)]) (d :: ds) := by
  simp [txWrite, State.accepted, State.nextDraw, State.midHandshake, h]

/-- While the peer sends no more than one byte for it, a read gives what arrives at its draw. -/
theorem readBytes_midHandshake (hq : s.rxq = []) (h : d.arrive.length ≤ 1) :
    (s.midHandshake p k last ev (d :: ds)).readBytes 1 = d.arrive := by
  simp [State.readBytes, State.nextDraw, State.midHandshake, hq, List.take_of_length_le h]

theorem rxRead_midHandshake (hq : s.rxq = []) (h : d.arrive.length ≤ 1) :
    rxRead 1 (s.midHandshake p k last ev (d :: ds)) =
      s.midHandshake p k last (ev ++ [.rx 1 d.arrive]) (d :: ds) := by
  rw [rxRead, readBytes_midHandshake hq h]
  simp [State.nextDraw, State.midHandshake, hq, List.drop_eq_nil_of_le h, -List.drop_one]

/-- The wake byte is sent and nothing arrives (R68). -/
theorem wakeAwaited_midHandshake (hk : k < 10) (h : d.brings []) :
    wakeAwaited (s.midHandshake p k last ev (d :: ds)) =
      s.midHandshake .hsWakeRx (k + 1) last (ev ++ [.tx [0x04] (min d.accept 1)]) ds := by
  obtain ⟨harr, hlate⟩ := h
  have hsend : wakeSend (s.midHandshake p k last ev (d :: ds)) =
      s.midHandshake .hsWakeRx (k + 1) last (ev ++ [.tx [0x04] (min d.accept 1)]) (d :: ds) := by
    rw [wakeSend_of_lt (by exact hk), txWrite_midHandshake _ harr]
    rfl
  rw [wakeAwaited, hsend, endStep_midHandshake hlate]

/-- The sync command is sent and nothing arrives (R69). -/
theorem drive_syncSent (n : Nat) (ht : s.task ≠ .idle) (h : d.brings []) :
    drive (n + 1) (s.midHandshake .hsSyncTx k last ev (d :: ds)) =
      drive n (s.midHandshake .hsSyncRx k last (ev ++ [.tx Config.syncCmd (min d.accept 3)]) ds) := by
  obtain ⟨harr, hlate⟩ := h
  have hsend : syncSend (s.midHandshake .hsSyncTx k last ev (d :: ds)) =
      s.midHandshake .hsSyncRx k last (ev ++ [.tx Config.syncCmd (min d.accept 3)]) (d :: ds) := by
    rw [syncSend, txWrite_midHandshake _ harr]
    rfl
  rw [drive_hsSyncTx n (by exact ht) rfl, hsend, endStep_midHandshake hlate]

/-- A wake attempt as the draws of its two steps make it. -/
def attemptOf (a : Draw × Draw) : Nat × List Byte := (min a.1.accept 1, a.2.arrive)

/-- A wake attempt whose draws bring one byte or none (R68). -/
theorem drive_attempt (n : Nat) {a : Draw × Draw} (ht : s.task ≠ .idle) (hq : s.rxq = []) (hk : k < 10)
    (ha : a.1.brings []) (hd : a.2.arrive.length ≤ 1) (hlate : a.2.late = []) :
    drive (n + 2) (wakeHead (s.midHandshake p k last ev (a.1 :: a.2 :: ds))) = drive n
      (if a.2.arrive = [0x05] then
         s.midHandshake .hsSyncTx (k + 1) (some 0x05) (ev ++ wakeEvents [attemptOf a]) ds
       else
         wakeHead (s.midHandshake .hsWakeRx (k + 1) a.2.arrive.head? (ev ++ wakeEvents [attemptOf a]) ds)) := by
  have hread : wakeRead (s.midHandshake p k last ev (a.1 :: a.2 :: ds)) =
      s.midHandshake .hsWakeRx (k + 1) last (ev ++ wakeEvents [attemptOf a]) ds := by
    rw [wakeRead, wakeAwaited_midHandshake hk ha, rxRead_midHandshake hq hd, endStep_midHandshake hlate,
      List.append_assoc]
    rfl
  rw [drive_wakeHead n (by exact ht) (by exact hk), hread, wakeAwaited_midHandshake hk ha,
    readBytes_midHandshake hq hd]
  rfl

end

/-- No byte, or one that is not the byte awaited. -/
theorem length_le_one_and_ne {l : List Byte} {b : Byte} (h : l = [] ∨ ∃ c, c ≠ b ∧ l = [c]) :
    l.length ≤ 1 ∧ l ≠ [b] := by
  obtain rfl | ⟨c, hc, rfl⟩ := h
  · exact ⟨Nat.zero_le 1, nofun⟩
  · exact ⟨Nat.le_refl 1, fun h => hc (List.singleton_inj.1 h)⟩

/-- A failed attempt reads no byte, or one that is not 0x05 (R68). -/
theorem failedAttempt_reads {a : Draw × Draw} (h : failedAttempt a) :
    (a.2.arrive.length ≤ 1 ∧ a.2.arrive ≠ [0x05]) ∧ a.2.late = [] := by
  obtain ⟨-, ⟨harr, hlate⟩ | ⟨b, hb, harr, hlate⟩⟩ := h
  · exact ⟨length_le_one_and_ne (.inl harr), hlate⟩
  · exact ⟨length_le_one_and_ne (.inr ⟨b, hb, harr⟩), hlate⟩

section
variable {s : State} {fails : List (Draw × Draw)} (n : Nat) (ht : s.task ≠ .idle) (hq : s.rxq = [])
include ht hq

/-- After failed attempts, up to ten, the loop's head stands with their number and the last byte read (R68). -/
theorem drive_failedAttempts (rest : List Draw) (hl : fails.length ≤ 10) (hf : ∀ a ∈ fails, failedAttempt a)
    (hs : s.script = attemptDraws fails ++ rest) :
    ∃ p, drive (n + 2 * fails.length) (startHandshake s) =
      drive n (wakeHead
        (s.midHandshake p fails.length (lastRead fails) (wakeEvents (fails.map attemptOf)) rest)) := by
  induction fails using List.reverseRecOn generalizing n rest with
  | nil =>
    obtain rfl : s.script = rest := hs
    exact ⟨s.phase, congrArg _ (startHandshake_midHandshake s)⟩
  | append_singleton fails a ih =>
    simp only [List.length_append, List.length_singleton, List.forall_mem_append, List.forall_mem_singleton]
      at hl hf ⊢
    obtain ⟨hinit, ha⟩ := hf
    obtain ⟨⟨hlen, hne⟩, hlate⟩ := failedAttempt_reads ha
    obtain ⟨p, hp⟩ := ih (n + 2) (a.1 :: a.2 :: rest) (by omega) hinit (by simp [hs, attemptDraws])
    refine ⟨.hsWakeRx, ?_⟩
    rw [show n + 2 * (fails.length + 1) = n + 2 + 2 * fails.length by omega, hp,
      drive_attempt n ht hq (by omega) ha.1 hlen hlate, if_neg hne]
    simp [lastRead, wakeEvents]

/-- After fewer than ten failed attempts and an answered one the sync command is sent, and its answer is read
(R68, R69). -/
theorem drive_handshake_answered {tx rx sy sr : Draw} {rest : List Draw}
    (hl : fails.length < 10) (hf : ∀ a ∈ fails, failedAttempt a)
    (htx : tx.brings []) (hrx : rx.brings [0x05]) (hsy : sy.brings []) (hsr : sr.arrive.length ≤ 1)
    (hs : s.script = attemptDraws fails ++ [tx, rx, sy, sr] ++ rest) :
    ∃ ev, drive (n + 4 + 2 * fails.length) (startHandshake s) = drive n (endStep
      (let t := s.midHandshake .hsSyncRx (fails.length + 1) (some 0x05) ev (sr :: rest)
       if sr.arrive = [0x06] then syncAcked t else syncMissed sr.arrive t)) := by
  obtain ⟨harr, hlate⟩ := hrx
  obtain ⟨p, hp⟩ := drive_failedAttempts (n + 4) ht hq (tx :: rx :: sy :: sr :: rest) hl.le hf (by simp [hs])
  rw [hp, drive_attempt (a := (tx, rx)) (n + 2) ht hq hl htx (by simp [harr]) hlate, if_pos harr,
    drive_syncSent (n + 1) ht hsy, drive_hsSyncRx n (by exact ht) rfl, readBytes_midHandshake hq hsr,
    rxRead_midHandshake hq hsr]
  exact ⟨_, rfl⟩

end

/-- HANDSHAKE on its own with an attempt answered: 0x06 as the answer to the sync command succeeds, anything
else rejects, and the script is used up to there (R69). -/
theorem exec_handshake_answered {s : State} {fails : List (Draw × Draw)} {tx rx sy sr : Draw} {rest : List Draw}
    (hq : s.rxq = []) (hl : fails.length < 10) (hf : ∀ a ∈ fails, failedAttempt a)
    (htx : tx.brings []) (hrx : rx.brings [0x05]) (hsy : sy.brings []) (hsr : sr.arrive.length ≤ 1)
    (hs : s.script = attemptDraws fails ++ [tx, rx, sy, sr] ++ rest) :
    ∃ t, exec .handshake s = .next t ∧ t.wakeCount = fails.length + 1 ∧ t.rxq = sr.late ∧ t.script = rest ∧
      t.task = s.task ∧
      (sr.arrive = [0x06] → t.opResult = some (.ok .unit) ∧ t.link = .ready) ∧
      (sr.arrive ≠ [0x06] →
        t.opResult = some (.err { fail := failSync sr.arrive.head? }) ∧ t.link = s.link) := by
  obtain ⟨n, hn⟩ : ∃ n, 40 + 9 * s.registry.length = n + 4 + 2 * fails.length :=
    ⟨36 + 9 * s.registry.length - 2 * fails.length, by omega⟩
  obtain ⟨ev, hev⟩ := drive_handshake_answered (s := { s with task := .handshake }) n (by simp) hq hl hf
    htx hrx hsy hsr hs
  refine ⟨_, exec_handshake s, ?_⟩
  rw [hn, hev]
  by_cases h : sr.arrive = [0x06]
  · rw [if_pos h, syncAcked_handshake rfl, drive_done _ _ (by simp), endStep_of _ sr rest rfl]
    exact ⟨rfl, by simp [hq, State.midHandshake], rfl, rfl, fun _ => ⟨rfl, rfl⟩, (absurd h ·)⟩
  · rw [if_neg h, syncMissed, raise_handshake _ rfl, drive_done _ _ (by simp), endStep_of _ sr rest rfl]
    exact ⟨rfl, by simp [hq, State.midHandshake], rfl, rfl, (absurd · h), fun _ => ⟨rfl, rfl⟩⟩

/-- Settles O13: after the failed attempts the answered one, and 0x06 as the answer to the sync command. -/
theorem handshakeSucceeds : Obligations.HandshakeSucceeds := by
  intro s fails tx rx sy sr rest hq hl hf htx hrx hsy hsr hs
  obtain ⟨t, he, hcount, hrxq, hscript, htask, hok, -⟩ :=
    exec_handshake_answered hq hl hf htx hrx hsy (by simp [hsr]) hs
  obtain ⟨hres, hlink⟩ := hok hsr
  exact ⟨t, he, hres, hlink, hcount, hrxq, hscript, htask⟩

/-- Settles O15: the same run, with another answer to the sync command. -/
theorem syncRejectedOnce : Obligations.SyncRejectedOnce := by
  intro s fails tx rx sy sr rest hq hl hf htx hrx hsy hsr hs
  obtain ⟨hlen, hne⟩ := length_le_one_and_ne hsr
  obtain ⟨t, he, -, -, hscript, -, -, herr⟩ := exec_handshake_answered hq hl hf htx hrx hsy hlen hs
  obtain ⟨hres, hlink⟩ := herr hne
  exact ⟨t, he, hlink, hscript, hres⟩

/-- Settles O14: the loop's head after ten failed attempts raises the error. -/
theorem handshakeExhausted : Obligations.HandshakeExhausted := by
  intro s fails rest hq hl hf hs
  obtain ⟨p, hp⟩ := drive_failedAttempts (s := { s with task := .handshake }) (20 + 9 * s.registry.length)
    (by simp) hq rest hl.le hf hs
  refine ⟨_, wakeEvents (fails.map attemptOf), exec_handshake s, ?_⟩
  rw [show 40 + 9 * s.registry.length = 20 + 9 * s.registry.length + 2 * fails.length by omega, hp,
    wakeHead_of_le (by exact hl.ge), raise_handshake _ rfl, drive_done _ _ rfl]
  refine ⟨rfl, hl, rfl, rfl, rfl, ?_, fun l c h => ?_⟩
  · rw [countP_wakeEvents _ 1 (fun _ _ => rfl), List.length_map, hl]
  · obtain ⟨c', h⟩ | ⟨r, h⟩ := wakeEvents_mem h <;> cases h
    rfl

end Sys2Proof.Machine
end

section
namespace Sys2Proof.Machine

/-! ### The handshake in every environment -/

/-- The registers that HANDSHAKE on its own does not write (R67, R71). -/
def State.besideHandshake (s : State) :=
  (s.portHeld, (s.acc, s.txbuf), (s.ackByte, s.startByte, s.declaredSize, s.rxbuf),
    (s.reqKind, s.reqAddr, s.reqSize, s.reqData), (s.sweepIdx, s.sweepMap), s.lastResult,
    (s.registry, s.hostq, s.resetIn), s.rsp)

/-- What only the end of HANDSHAKE writes, and what it does not write. -/
def State.untilReturn (s : State) := (s.task, s.link, s.err, s.besideHandshake)

/-- The interactions of the sync step, if it was reached: one try (R69). -/
def SyncTried (l : List Event) : Prop := l = [] ∨ ∃ c r, l = [.tx [0x16, 0x00, 0x00] c, .rx 1 r]

/-- HANDSHAKE on its own runs from s to its end t, with at most k wake attempts: its interactions, its result,
its frame (R67 to R71). -/
structure HandshakeEnds (k : Nat) (s t : State) : Prop where
  events : ∃ attempts sync, t.trace = s.trace ++ (wakeEvents attempts ++ sync) ∧ attempts.length ≤ k ∧
    SyncTried sync
  outcome : t.opResult = some (.ok .unit) ∧ t.link = .ready ∧ t.err = s.err ∨
    ∃ f, t.opResult = some (.err { fail := f }) ∧ t.link = s.link ∧ t.err = some { fail := f } ∧
      (f.kind = .noHandshakeResponse ∨ f.kind = .syncRejected)
  frame : t.besideHandshake = s.besideHandshake

/-- One more attempt before it. -/
theorem HandshakeEnds.after_attempt {k : Nat} {s u t : State} {a : Nat × List Byte} (h : HandshakeEnds k u t)
    (hs : u.untilReturn = s.untilReturn) (ha : u.trace = s.trace ++ wakeEvents [a]) :
    HandshakeEnds (k + 1) s t := by
  obtain ⟨⟨attempts, sync, htr, hk, hsync⟩, hout, hframe⟩ := h
  simp only [State.untilReturn, Prod.mk.injEq] at hs
  obtain ⟨-, hlink, herr, hbeside⟩ := hs
  refine ⟨⟨a :: attempts, sync, ?_, Nat.succ_le_succ hk, hsync⟩, ?_, hframe.trans hbeside⟩
  · simp [htr, ha, wakeEvents]
  · rwa [hlink, herr] at hout

/-- What the peer appends at the end of a step changes nothing of it (R34). -/
theorem HandshakeEnds.endStep {k : Nat} {s t : State} (h : HandshakeEnds k s t) :
    HandshakeEnds k s (endStep t) := by
  obtain ⟨hev, hout, hframe⟩ := h
  exact ⟨by simpa using hev, by simpa using hout, hframe ▸ by simp [State.besideHandshake]⟩

section
variable {s u : State} {sync : List Event} (k : Nat) (ht : s.task = .handshake)
  (hu : u.untilReturn = s.untilReturn) (htr : u.trace = s.trace ++ sync)
  (hsync : SyncTried sync)
include ht hu htr hsync

/-- An error ends the handshake, and is its result (R10, R25). -/
theorem handshakeEnds_raise {f : Fail} (hf : f.kind = .noHandshakeResponse ∨ f.kind = .syncRejected) :
    (raise f u).task = .idle ∧ HandshakeEnds k s (raise f u) := by
  simp only [State.untilReturn, Prod.mk.injEq] at hu
  obtain ⟨htask, hlink, -, hbeside⟩ := hu
  rw [raise_handshake f (htask.trans ht)]
  exact ⟨rfl, ⟨[], sync, htr, Nat.zero_le k, hsync⟩, .inr ⟨f, rfl, hlink, rfl, hf⟩, hbeside⟩

/-- The sync acknowledge ends it with `Ok(())` (R69). -/
theorem handshakeEnds_syncAcked : (syncAcked u).task = .idle ∧ HandshakeEnds k s (syncAcked u) := by
  simp only [State.untilReturn, Prod.mk.injEq] at hu
  obtain ⟨htask, -, herr, hbeside⟩ := hu
  rw [syncAcked_handshake (htask.trans ht)]
  exact ⟨rfl, ⟨[], sync, htr, Nat.zero_le k, hsync⟩, .inl ⟨rfl, rfl, herr⟩, hbeside⟩

end

/-- The sync step makes one try, and ends (R69). -/
theorem handshakeEnds_sync {s : State} (k n : Nat) (ht : s.task = .handshake) (hp : s.phase = .hsSyncTx) :
    HandshakeEnds k s (drive (n + 2) s) := by
  have hrun : (endStep (syncSend s)).task ≠ .idle := by simp [syncSend, ht]
  have hphase : (endStep (syncSend s)).phase = .hsSyncRx := by simp [syncSend]
  have hsame : (rxRead 1 (endStep (syncSend s))).untilReturn = s.untilReturn := by
    simp [syncSend, State.untilReturn, State.besideHandshake]
  have htrace : (rxRead 1 (endStep (syncSend s))).trace = s.trace ++
      [.tx [0x16, 0x00, 0x00] (s.accepted Config.syncCmd), .rx 1 ((endStep (syncSend s)).readBytes 1)] := by
    simp [syncSend, Config.syncCmd]
  rw [drive_hsSyncTx (n + 1) (by simp [ht]) hp, drive_hsSyncRx n hrun hphase]
  split
  · obtain ⟨hdone, hends⟩ := handshakeEnds_syncAcked k ht hsame htrace (.inr ⟨_, _, rfl⟩)
    rw [drive_done _ _ (by simpa using hdone)]
    exact hends.endStep
  · obtain ⟨hdone, hends⟩ := handshakeEnds_raise k ht hsame htrace (.inr ⟨_, _, rfl⟩)
      (f := failSync ((endStep (syncSend s)).readBytes 1).head?) (.inr rfl)
    rw [syncMissed, drive_done _ _ (by simpa using hdone)]
    exact hends.endStep

/-- A wake attempt in any environment: its two interactions, and its count. -/
theorem wakeRead_attempt {s : State} (h : s.wakeCount < 10) :
    (wakeRead s).untilReturn = s.untilReturn ∧ (wakeRead s).wakeCount = s.wakeCount + 1 ∧
      (wakeRead s).trace = s.trace ++ wakeEvents [(s.accepted [0x04], (wakeAwaited s).readBytes 1)] := by
  have hw : (wakeAwaited s).untilReturn = s.untilReturn ∧ (wakeAwaited s).wakeCount = s.wakeCount + 1 ∧
      (wakeAwaited s).trace = s.trace ++ [.tx [0x04] (s.accepted [0x04])] := by
    simp [wakeAwaited, wakeSend_of_lt h, State.untilReturn, State.besideHandshake]
  obtain ⟨hsame, hcount, htrace⟩ := hw
  refine ⟨?_, ?_, ?_⟩
  · rw [← hsame]
    simp [wakeRead, State.untilReturn, State.besideHandshake]
  · simp [wakeRead, hcount]
  · simp [wakeRead, htrace, wakeEvents]

/-- From the loop's head HANDSHAKE ends, by induction on the attempts left (R68, R70). -/
theorem handshakeEnds_wakeHead (k n : Nat) {s : State} (ht : s.task = .handshake) (hk : s.wakeCount + k = 10) :
    HandshakeEnds k s (drive (n + 2 + 2 * k) (wakeHead s)) := by
  induction k generalizing s with
  | zero =>
    obtain ⟨hdone, hends⟩ := handshakeEnds_raise 0 ht rfl (List.append_nil s.trace).symm (.inl rfl)
      (f := failNoHandshake s.wakeLast) (.inl rfl)
    rwa [wakeHead_of_le hk.ge, drive_done _ _ hdone]
  | succ k ih =>
    have hlt : s.wakeCount < 10 := by omega
    obtain ⟨hsame, hcount, htrace⟩ := wakeRead_attempt hlt
    have htask : (wakeRead s).task = .handshake := (congrArg Prod.fst hsame).trans ht
    rw [show n + 2 + 2 * (k + 1) = n + 2 * k + 2 + 2 by omega, drive_wakeHead _ (by simp [ht]) hlt]
    split
    · exact (handshakeEnds_sync (s := wakeAcked (wakeRead s)) k _ htask rfl).after_attempt hsame htrace
    · have hrest := ih (s := { wakeRead s with wakeLast := ((wakeAwaited s).readBytes 1).head? }) htask
        (by simp only [hcount]; omega)
      rw [show n + 2 * k + 2 = n + 2 + 2 * k by omega, wakeMissed]
      exact hrest.after_attempt hsame htrace

/-- The interactions of HANDSHAKE, counted (R68 to R71). -/
theorem handshake_counts {attempts : List (Nat × List Byte)} {sync : List Event} (hlen : attempts.length ≤ 10)
    (hsync : SyncTried sync) :
    ((wakeEvents attempts ++ sync).countP Event.isTx ≤ 11 ∧
      (wakeEvents attempts ++ sync).countP Event.isRx ≤ 11) ∧
    (∀ e ∈ wakeEvents attempts ++ sync,
      (∃ c, e = .tx [0x04] c) ∨ (∃ c, e = .tx [0x16, 0x00, 0x00] c) ∨ ∃ r, e = .rx 1 r) ∧
    (wakeEvents attempts ++ sync).countP Event.isWake ≤ 10 ∧
    (wakeEvents attempts ++ sync).countP Event.isSync ≤ 1 := by
  have hcount : sync.countP Event.isTx ≤ 1 ∧ sync.countP Event.isRx ≤ 1 ∧ sync.countP Event.isWake = 0 ∧
      sync.countP Event.isSync ≤ 1 := by
    obtain rfl | ⟨c, r, rfl⟩ := hsync
    · simp
    · exact ⟨le_rfl, le_rfl, rfl, le_rfl⟩
  have hmem : ∀ e ∈ sync, (∃ c, e = .tx [0x16, 0x00, 0x00] c) ∨ ∃ r, e = .rx 1 r := by
    obtain rfl | ⟨c, r, rfl⟩ := hsync <;> simp
  simp only [List.countP_append, countP_wakeEvents Event.isTx 1 (fun _ _ => rfl),
    countP_wakeEvents Event.isRx 1 (fun _ _ => rfl), countP_wakeEvents Event.isWake 1 (fun _ _ => rfl),
    countP_wakeEvents Event.isSync 0 (fun _ _ => rfl)]
  refine ⟨by omega, fun e he => ?_, by omega, by omega⟩
  obtain he | he := List.mem_append.1 he
  · exact (wakeEvents_mem he).imp_right .inr
  · exact .inr (hmem e he)

/-- Settles O16: HANDSHAKE begins at the loop's head with ten attempts left. -/
theorem handshakeBounded : Obligations.HandshakeBounded := by
  intro s
  obtain ⟨⟨attempts, sync, htr, hlen, hsync⟩, hout, hframe⟩ :=
    handshakeEnds_wakeHead 10 (18 + 9 * s.registry.length)
      (s := { s with task := .handshake, wakeCount := 0, wakeLast := none }) rfl rfl
  simp only [State.besideHandshake, Prod.mk.injEq] at hframe
  obtain ⟨hport, htransmit, hresponse, hrequest, hsweep, hlast, hinputs, hrsp⟩ := hframe
  obtain ⟨htotal, hmem, hwake, hone⟩ := handshake_counts hlen hsync
  refine ⟨_, wakeEvents attempts ++ sync, exec_handshake s, ?_⟩
  rw [show 40 + 9 * s.registry.length = 18 + 9 * s.registry.length + 2 + 2 * 10 by omega]
  exact ⟨htr, htotal, hmem, hwake, hone, hout, hport, htransmit, hresponse, hrequest, hsweep, hlast, hinputs, rfl,
    hrsp⟩

end Sys2Proof.Machine
end

section
namespace Sys2Proof.Machine

/-! ### The accumulator and the frame builder (R72 to R74) -/

/-- `CK_ADD` adds mod 256 (R73). -/
theorem ckAdd_eq (b : Byte) (s : State) :
    ckAdd b s = { s with acc := BitVec.ofNat 8 ((s.acc.toNat + b.toNat) % 256) } := by
  have hsum : s.acc + b = BitVec.ofNat 8 ((s.acc.toNat + b.toNat) % 256) :=
    BitVec.eq_of_toNat_eq (by simp)
  rw [ckAdd, hsum]

/-- Settles O17: one addition by `ckAdd_eq`, the whole run by the law `ckRun_eq`. -/
theorem accumulatorComputesChecksum : Obligations.AccumulatorComputesChecksum :=
  fun s b len p => ⟨rfl, congrArg _ (ckAdd_eq b s), congrArg _ (ckRun_eq len p s)⟩

/-- `BUILD` of a payload that fits (R74). -/
theorem exec_build_of_le {p : List Byte} (s : State) (h : p.length ≤ 100) :
    exec (.build p) s = .next (setResult (.ok (.bytes (frameOf p))) (buildFrame p s)) := by
  have hfits : tooLarge p = false := decide_eq_false (Nat.not_lt.2 h)
  simp [exec, execBuild, hfits, buildFrame_eq]

/-- `BUILD` of a payload that does not (R74). -/
theorem exec_build_of_gt {p : List Byte} (s : State) (h : 100 < p.length) :
    exec (.build p) s = .next (failOp (failTooLarge p.length) s) :=
  if_pos (decide_eq_true h)

/-- Settles O18: on both sides of 100 bytes. -/
theorem buildMakesFrame : Obligations.BuildMakesFrame := by
  refine fun s p => ⟨fun h => ⟨checksum (byteOfNat p.length) p, checksum_toNat (by omega), ?_⟩, ?_⟩
  · rw [exec_build_of_le s h, buildFrame_eq]
    rfl
  · rintro e rfl h
    exact exec_build_of_gt s h

/-! ### The ACK byte and the response frame as messages (R75 to R79) -/

section
variable {s : State}

/-- An error under WRITE_VALUE ends the command with it (R115). -/
theorem raise_writing (e : Fail) (ht : s.task = .writing) :
    raise e s = finishCmd (.err { fail := e }) s := by
  simp only [raise, ht]

/-- An error under GET_MEASUREMENTS is wrapped with the entry's name, and the map dropped (R105, R114). -/
theorem raise_sweeping (e : Fail) {d : SensorDef} (ht : s.task = .sweeping)
    (hd : s.registry[s.sweepIdx]? = some d) :
    raise e s = finishCmd (.err (errSensorRead (some d.name) e)) { s with sweepMap := [] } := by
  simp only [raise, ht, State.sweepName, hd, Option.map_some]

/-- Inside a register access the echo check of the payload is next (R84, R86). -/
theorem parseReturn_register (p : List Byte)
    (h : s.task = .regRead ∨ s.task = .regWrite ∨ s.task = .sweeping ∨ s.task = .writing) :
    parseReturn p s = { s with rsp := some p } := by
  rcases h with h | h | h | h <;> simp only [parseReturn, h]

end

/-- Settles O21: the two meanings, `NAK`'s by what an error does to a line operation. -/
theorem ackOrNakRecognised : Obligations.AckOrNakRecognised := by
  refine fun s => ⟨rfl, fun ht => congrArg _ (raise_local failNak { s with ackByte := 0x15 } ?_)⟩
  obtain h | h | h | h := ht
  · exact .inl h
  · exact .inr (.inr (.inl h))
  · exact .inr (.inr (.inr h))
  · exact .inr (.inl h)

/-- The checksum check of a whole body (R79). -/
theorem checkFrame_whole {s : State} {q : List Byte} {ck : Byte}
    (hlen : q.length = s.declaredSize.toNat) (hbody : s.rxbuf = q ++ [ck]) :
    checkFrame s =
      if ck = checksum s.declaredSize q then
        parseReturn q { s with phase := .check, acc := checksum s.declaredSize q }
      else
        raise (failChecksum ck (checksum s.declaredSize q))
          { s with phase := .check, acc := checksum s.declaredSize q } := by
  by_cases hck : ck = checksum s.declaredSize q
  · rw [if_pos hck, ← hck]
    exact checkFrame_good s q ck hlen.symm hbody hck
  · have hget : s.rxbuf[s.declaredSize.toNat]? = some ck := by simp [hbody, ← hlen]
    have hpay : s.rxPayload = q := by simp [State.rxPayload, hbody, ← hlen]
    simp only [checkFrame, hget, hpay, ckRun_eq, if_neg hck, ne_eq, Ne.symm hck, not_false_eq_true, if_true]

/-- The state in which a response frame has been received whole and its checksum computed (R76 to R79). -/
def frameChecked (p : List Byte) (ck : Byte) (s : State) : State :=
  { s with
    startByte := 0x41
    declaredSize := byteOfNat p.length
    rxbuf := p ++ [ck]
    acc := checksum (byteOfNat p.length) p
    phase := .check }

/-- A response frame's two outcomes (R79). -/
theorem exec_respFrame {p : List Byte} (ck : Byte) (s : State) (h : p.length ≤ 255) :
    exec (.respFrame p ck) s = .next
      (if ck = checksum (byteOfNat p.length) p then parseReturn p (frameChecked p ck s)
       else raise (failChecksum ck (checksum (byteOfNat p.length) p)) (frameChecked p ck s)) :=
  congrArg _ (checkFrame_whole (s := { s with startByte := _, declaredSize := _, rxbuf := _ })
    (byteOfNat_toNat _ h).symm rfl)

/-- Settles O23: the outcome by the checksum, then the end by the operation that runs. -/
theorem responseFrameChecked : Obligations.ResponseFrameChecked := by
  rintro s m p ck sum e hlen hsum hm rfl
  obtain rfl : sum = checksum (byteOfNat p.length) p :=
    BitVec.eq_of_toNat_eq (hsum.trans (checksum_toNat hlen).symm)
  obtain rfl : m = frameChecked p ck s := hm
  rw [exec_respFrame ck s hlen]
  refine ⟨fun hck => ?_, fun hck => ?_⟩
  · rw [if_pos hck]
    exact ⟨fun ht => congrArg _ (parseReturn_plain _ _ ht), fun ht => congrArg _ (parseReturn_register _ ht)⟩
  · rw [if_neg hck]
    refine ⟨fun ht => congrArg _ (raise_local _ _ ht), fun ht => congrArg _ (raise_writing _ ht), ?_⟩
    rintro d w ht hd rfl
    exact congrArg _ (raise_sweeping (s := frameChecked p ck s) _ ht hd)

end Sys2Proof.Machine
end

section
namespace Sys2Proof.Machine

/-! ### The bytes a parse finds (R31, R34, R75 to R79) -/

/-- What the next k draws bring, from the script left and the free draws taken: what arrives while the step
reads or writes, and what comes at its end (log 1, 2). -/
def peerBytes : Nat → List Draw → Nat → List Byte
  | 0, _, _ => []
  | k + 1, d :: ds, n => d.arrive ++ d.late ++ peerBytes k ds n
  | k + 1, [], n => (Config.freeDraw n).arrive ++ (Config.freeDraw n).late ++ peerBytes k [] (n + 1)

/-- What the next k draws bring from a state on. -/
def State.incoming (k : Nat) (s : State) : List Byte := peerBytes k s.script s.draws

/-- The next draw's bytes, then those of the draws after it. -/
theorem incoming_succ (k : Nat) (s : State) :
    s.incoming (k + 1) = s.nextDraw.arrive ++ s.nextDraw.late ++ (endStep s).incoming k := by
  rcases hs : s.script with _ | ⟨d, ds⟩ <;>
    simp [State.incoming, peerBytes, State.nextDraw, State.afterDraw, hs]

/-- A parse of `PARSE` or `EXECUTE` on its own in phase p: `rxq` begins with l, and m is what follows it, there
or from the next k draws. With nothing coming and m empty, l is all there is. -/
structure ReadsAt (p : Phase) (k : Nat) (l m : List Byte) (s : State) : Prop where
  phase : s.phase = p
  task : ParseOp s.task
  queue : ∃ x, s.rxq = l ++ x ∧ x ++ s.incoming k = m

section
variable {p q : Phase} {k n : Nat} {l l' m : List Byte} {s u : State}

/-- What stands in `rxq` is read. -/
theorem ReadsAt.readBytes (h : ReadsAt p k (l ++ l') m s) : s.readBytes l.length = l := by
  obtain ⟨x, hx, -⟩ := h.queue
  exact readBytes_prefix s l (l' ++ x) (by rw [hx, List.append_assoc])

/-- After such a read and the work that follows it, the rest stands there at the next step. -/
theorem ReadsAt.next (h : ReadsAt p (k + 1) (l ++ l') m s) (hp : u.phase = q) (ht : u.task = s.task)
    (hq : u.rxq = (rxRead l.length s).rxq) (hs : u.script = s.script) (hd : u.draws = s.draws) :
    ReadsAt q k l' m (endStep u) := by
  obtain ⟨-, htask, x, hx, rfl⟩ := h
  have hdraw : u.nextDraw = s.nextDraw := by simp only [State.nextDraw, hs, hd]
  have hin : u.incoming (k + 1) = s.incoming (k + 1) := by simp only [State.incoming, hs, hd]
  refine ⟨by simpa using hp, by simpa [ht] using htask, x ++ s.nextDraw.arrive ++ s.nextDraw.late, ?_, ?_⟩
  · rw [endStep_rxq, hq, hdraw, rxRead_rxq_prefix s l (l' ++ x) (by rw [hx, List.append_assoc])]
    simp only [List.append_assoc]
  · rw [← hin, incoming_succ, hdraw]
    simp only [List.append_assoc]

/-- With nothing following, `rxq` is l, and the step brings nothing. -/
theorem ReadsAt.quiet (h : ReadsAt p (k + 1) l [] s) :
    s.rxq = l ∧ s.nextDraw.arrive = [] ∧ s.nextDraw.late = [] := by
  obtain ⟨-, -, x, hx, hm⟩ := h
  simp only [incoming_succ, List.append_eq_nil_iff] at hm
  obtain ⟨rfl, ⟨harr, hlate⟩, -⟩ := hm
  exact ⟨by simpa using hx, harr, hlate⟩

end

/-! ### The checksum check and what it leaves alone (R79) -/

/-- What a parse makes of a body received whole (R79). -/
def verdict (len : Byte) (p : List Byte) (ck : Byte) : Result :=
  if ck = checksum len p then .ok (.bytes p) else .err { fail := failChecksum ck (checksum len p) }

section
variable {s : State}

/-- The check of a parse on its own returns the verdict. -/
theorem checkFrame_opResult {p : List Byte} {ck : Byte} (ht : ParseOp s.task)
    (hlen : p.length = s.declaredSize.toNat) (hbody : s.rxbuf = p ++ [ck]) :
    (checkFrame s).opResult = some (verdict s.declaredSize p ck) := by
  rw [checkFrame_whole hlen hbody, verdict]
  split
  · rw [parseReturn_plain _ _ (by exact ht), finishOp_opResult]
  · rw [raise_plain _ _ (by exact ht), finishOp_opResult]

/-- What a read of the line concerns: the body received, `rxq`, the interactions so far, the draws to come. -/
def State.line (s : State) :=
  ((s.declaredSize, s.rxbuf), s.rxq, s.trace, (s.script, s.draws))

theorem raise_line (e : Fail) (s : State) : (raise e s).line = s.line := by
  simp [State.line]

theorem parseReturn_line (p : List Byte) (s : State) : (parseReturn p s).line = s.line := by
  unfold parseReturn
  split <;> rfl

/-- The check is a computation: the line does not change. -/
theorem checkFrame_line (s : State) : (checkFrame s).line = s.line := by
  simp only [checkFrame, ckRun_eq]
  split
  · exact raise_line _ _
  · split
    · exact raise_line _ _
    · exact parseReturn_line _ _

@[simp] theorem checkFrame_declaredSize (s : State) : (checkFrame s).declaredSize = s.declaredSize :=
  congrArg (·.1.1) (checkFrame_line s)
@[simp] theorem checkFrame_rxbuf (s : State) : (checkFrame s).rxbuf = s.rxbuf :=
  congrArg (·.1.2) (checkFrame_line s)
@[simp] theorem checkFrame_rxq (s : State) : (checkFrame s).rxq = s.rxq :=
  congrArg (·.2.1) (checkFrame_line s)
@[simp] theorem checkFrame_trace (s : State) : (checkFrame s).trace = s.trace :=
  congrArg (·.2.2.1) (checkFrame_line s)
@[simp] theorem checkFrame_script (s : State) : (checkFrame s).script = s.script :=
  congrArg (·.2.2.2.1) (checkFrame_line s)
@[simp] theorem checkFrame_draws (s : State) : (checkFrame s).draws = s.draws :=
  congrArg (·.2.2.2.2) (checkFrame_line s)

end

/-! ### The steps of a parse, in any environment (R75 to R79) -/

/-- The error of the ACK step by what it read (R75). -/
def ackFail : Option Byte → Fail
  | none => failNoAck
  | some b => if b = 0x15 then failNak else failUnexpectedAck b

/-- The body has been read whole, and the checksum check is next (R78). -/
def bodyTaken (s : State) : State :=
  { rxRead (s.declaredSize.toNat + 1) s with
    rxbuf := s.readBytes (s.declaredSize.toNat + 1)
    phase := .check
    rsp := none }

section
variable {n : Nat} {s : State} (ht : ParseOp s.task)
include ht

/-- R75: without the ACK the parse ends. -/
theorem drive_noAck (hp : s.phase = .rxAck) (h : s.readBytes 1 ≠ [0x06]) :
    drive (n + 5) s = endStep (raise (ackFail (s.readBytes 1).head?)
      { rxRead 1 s with ackByte := (s.readBytes 1).headD s.ackByte }) := by
  rw [drive_ack n s hp ht, if_neg h]
  obtain hr | ⟨b, hr⟩ := readBytes_one s
  · rw [hr]
    rfl
  · by_cases hb : b = 0x15
    · rw [hr, hb]
      rfl
    · rw [hr, if_neg (fun e => hb (List.singleton_inj.1 e))]
      simp only [ackMissed, ackFail, List.head?_cons, if_neg hb, List.headD_cons]

/-- R76: without the start byte the parse ends. -/
theorem drive_noStart (hp : s.phase = .rxStart) (h : s.readBytes 1 ≠ [0x41]) :
    drive (n + 4) s = endStep (raise (failFrameStart (s.readBytes 1).head?)
      { rxRead 1 s with startByte := (s.readBytes 1).headD s.startByte }) := by
  rw [drive_start n s hp ht, if_neg h, startStep_missing h]

/-- R77: without a length byte the parse ends. -/
theorem drive_noLen (hp : s.phase = .rxLen) (h : s.readBytes 1 = []) :
    drive (n + 3) s = endStep (raise failFrameSize (rxRead 1 s)) := by
  rw [drive_len n s hp ht, if_pos h, lenStep, h]

/-- R78: with fewer bytes than declared the parse ends. -/
theorem drive_shortBody (hp : s.phase = .rxBody)
    (h : (s.readBytes (s.declaredSize.toNat + 1)).length < s.declaredSize.toNat + 1) :
    drive (n + 2) s = endStep (raise
      (failTooShort (s.readBytes (s.declaredSize.toNat + 1)).length (s.declaredSize.toNat + 1))
      { rxRead (s.declaredSize.toNat + 1) s with rxbuf := s.readBytes (s.declaredSize.toNat + 1) }) := by
  rw [drive_body n s hp ht, if_pos h]
  exact congrArg endStep (if_pos h)

/-- R78, R79: a whole body is checked. -/
theorem drive_wholeBody (hp : s.phase = .rxBody)
    (h : ¬ (s.readBytes (s.declaredSize.toNat + 1)).length < s.declaredSize.toNat + 1) :
    drive (n + 2) s = endStep (checkFrame (endStep (bodyTaken s))) := by
  rw [drive_body n s hp ht, if_neg h]
  exact congrArg (fun u => endStep (checkFrame (endStep u))) (if_neg h)

end

/-! ### The steps of a parse, by the bytes it finds -/

section
variable {p : Phase} {k n : Nat} {l m : List Byte} {s : State}

/-- R75, the ACK. -/
theorem ReadsAt.ack (h : ReadsAt .rxAck (k + 1) (0x06 :: l) m s) :
    ∃ u, drive (n + 5) s = drive (n + 4) u ∧ ReadsAt .rxStart k l m u :=
  ⟨_, (drive_ack n s h.phase h.task).trans (if_pos (h.readBytes (l := [0x06]))),
    h.next (l := [0x06]) rfl rfl rfl rfl rfl⟩

/-- R76, the start byte. -/
theorem ReadsAt.start (h : ReadsAt .rxStart (k + 1) (0x41 :: l) m s) :
    ∃ u, drive (n + 4) s = drive (n + 3) u ∧ ReadsAt .rxLen k l m u := by
  have hread : s.readBytes 1 = [0x41] := h.readBytes (l := [0x41])
  refine ⟨_, (drive_start n s h.phase h.task).trans (if_pos hread), ?_⟩
  rw [startStep_start hread]
  exact h.next (l := [0x41]) rfl rfl rfl rfl rfl

/-- R77, the length byte. -/
theorem ReadsAt.len {b : Byte} (h : ReadsAt .rxLen (k + 1) (b :: l) m s) :
    ∃ u, drive (n + 3) s = drive (n + 2) u ∧ ReadsAt .rxBody k l m u ∧ u.declaredSize = b := by
  have hread : s.readBytes 1 = [b] := h.readBytes (l := [b])
  refine ⟨_, (drive_len n s h.phase h.task).trans (if_neg (by simp [hread])), ?_⟩
  simp only [lenStep, hread]
  exact ⟨h.next (l := [b]) rfl rfl rfl rfl rfl, by simp⟩

/-- R79: a whole body gives its verdict. -/
theorem ReadsAt.check {q : List Byte} {ck : Byte} (h : ReadsAt .check 1 l m s)
    (hlen : q.length = s.declaredSize.toNat) (hbody : s.rxbuf = q ++ [ck]) :
    (endStep (checkFrame s)).opResult = some (verdict s.declaredSize q ck) ∧
      (m = [] → (endStep (checkFrame s)).rxq = l) := by
  refine ⟨(endStep_opResult _).trans (checkFrame_opResult h.task hlen hbody), ?_⟩
  rintro rfl
  have hdraw : (checkFrame s).nextDraw = s.nextDraw := by simp [State.nextDraw]
  obtain ⟨hl, -, hlate⟩ := h.quiet
  rw [endStep_rxq, checkFrame_rxq, hdraw, hl, hlate, List.append_nil]

/-- R78 and R79: a body that stands there whole gives its verdict. -/
theorem ReadsAt.body {q : List Byte} {ck : Byte} (h : ReadsAt .rxBody 2 (q ++ ck :: l) m s)
    (hlen : q.length = s.declaredSize.toNat) :
    (drive (n + 2) s).opResult = some (verdict s.declaredSize q ck) ∧
      (m = [] → (drive (n + 2) s).rxq = l) := by
  have hwhole : ReadsAt .rxBody 2 ((q ++ [ck]) ++ l) m s := by simpa using h
  have hn : (q ++ [ck]).length = s.declaredSize.toNat + 1 := by simp [hlen]
  have hread : s.readBytes (s.declaredSize.toNat + 1) = q ++ [ck] := hn ▸ hwhole.readBytes
  have hcheck : ReadsAt .check 1 l m (endStep (bodyTaken s)) :=
    hwhole.next rfl rfl (by rw [hn]; rfl) rfl rfl
  rw [drive_wholeBody h.task h.phase (by rw [hread, hn]; exact Nat.lt_irrefl _)]
  simpa [bodyTaken] using hcheck.check (q := q) (ck := ck) (by simp [bodyTaken, hlen])
    (by simp [bodyTaken, hread])

/-! Where nothing more comes, a step that does not find what it awaits ends the parse. -/

/-- An operation run to its end: its result, and what is left in `rxq`. -/
def EndsWith (r : Result) (rest : List Byte) (t : State) : Prop := t.opResult = some r ∧ t.rxq = rest

/-- A read then gives what there is, up to its length. -/
theorem ReadsAt.reads (h : ReadsAt p (k + 1) l [] s) : s.readBytes n = l.take n := by
  obtain ⟨hl, harr, -⟩ := h.quiet
  rw [State.readBytes, hl, harr, List.append_nil]

/-- An error after a read of n bytes ends the parse, and the bytes behind it stay. -/
theorem ReadsAt.fails {e : Fail} {u : State} (h : ReadsAt p (k + 1) l [] s) (ht : u.task = s.task)
    (hq : u.rxq = (rxRead n s).rxq) (hs : u.script = s.script) (hd : u.draws = s.draws) :
    EndsWith (.err { fail := e }) (l.drop n) (endStep (raise e u)) := by
  obtain ⟨hl, harr, hlate⟩ := h.quiet
  have hdraw : u.nextDraw = s.nextDraw := by simp only [State.nextDraw, hs, hd]
  rw [endStep_raise, raise_plain _ _ (by simpa [ht] using h.task)]
  exact ⟨rfl, by simp [hq, hl, harr, hdraw, hlate]⟩

/-- R75 without the ACK. -/
theorem ReadsAt.noAck (h : ReadsAt .rxAck (k + 1) l [] s) (hl : l.take 1 ≠ [0x06]) :
    EndsWith (.err { fail := ackFail (l.take 1).head? }) (l.drop 1) (drive (n + 5) s) := by
  rw [drive_noAck h.task h.phase (h.reads.trans_ne hl), h.reads]
  exact h.fails (n := 1) rfl rfl rfl rfl

/-- R76 without the start byte. -/
theorem ReadsAt.noStart (h : ReadsAt .rxStart (k + 1) l [] s) (hl : l.take 1 ≠ [0x41]) :
    EndsWith (.err { fail := failFrameStart (l.take 1).head? }) (l.drop 1) (drive (n + 4) s) := by
  rw [drive_noStart h.task h.phase (h.reads.trans_ne hl), h.reads]
  exact h.fails (n := 1) rfl rfl rfl rfl

/-- R77 without a byte. -/
theorem ReadsAt.noLen (h : ReadsAt .rxLen (k + 1) [] [] s) :
    EndsWith (.err { fail := failFrameSize }) [] (drive (n + 3) s) := by
  rw [drive_noLen h.task h.phase h.reads]
  exact h.fails (n := 1) rfl rfl rfl rfl

/-- R78 with fewer bytes than declared. -/
theorem ReadsAt.shortBody (h : ReadsAt .rxBody (k + 1) l [] s) (hl : l.length < s.declaredSize.toNat + 1) :
    EndsWith (.err { fail := failTooShort l.length (s.declaredSize.toNat + 1) })
      (l.drop (s.declaredSize.toNat + 1)) (drive (n + 2) s) := by
  have hread : s.readBytes (s.declaredSize.toNat + 1) = l := h.reads.trans (List.take_of_length_le hl.le)
  rw [drive_shortBody h.task h.phase (by rwa [hread]), hread]
  exact h.fails rfl rfl rfl rfl

end

/-! ### PARSE on its own -/

/-- `PARSE` is driven from `RX_ACK` (R75), with steps to spare (R135). -/
theorem exec_parse (s : State) : ∃ n, exec .parse s =
    .next { drive (n + 5) (startParse { s with task := .parse }) with task := s.task } :=
  ⟨35 + 9 * s.registry.length, by
    rw [show 35 + 9 * s.registry.length + 5 = s.opFuel by simp only [State.opFuel]; omega]
    rfl⟩

/-- What a parse finds when it begins. -/
theorem startParse_readsAt {s : State} {l x : List Byte} (k : Nat) (h : s.rxq = l ++ x) :
    ReadsAt .rxAck k l (x ++ s.incoming k) (startParse { s with task := .parse }) :=
  ⟨rfl, .inl rfl, x, h, rfl⟩

/-- A frame that stands in `rxq` whole, behind the ACK, gives its verdict in every environment (R75 to R79). -/
theorem ReadsAt.frame {n : Nat} {len ck : Byte} {q r m : List Byte} {s : State}
    (h : ReadsAt .rxAck 5 (0x06 :: 0x41 :: len :: (q ++ ck :: r)) m s) (hlen : q.length = len.toNat) :
    (drive (n + 5) s).opResult = some (verdict len q ck) ∧ (m = [] → (drive (n + 5) s).rxq = r) := by
  obtain ⟨u, hu, hstart⟩ := h.ack
  obtain ⟨v, hv, hsize⟩ := hstart.start
  obtain ⟨w, hw, hbody, rfl⟩ := hsize.len
  rw [hu, hv, hw]
  exact hbody.body hlen

/-- Settles O25: the frame that `BUILD` returns is one whose verdict is its payload. -/
theorem parseInvertsBuild : Obligations.ParseInvertsBuild := by
  intro s p hp
  refine ⟨_, frameOf p, exec_build_of_le s hp, rfl, fun v r hv => ?_⟩
  obtain ⟨n, hn⟩ := exec_parse v
  have hbytes : 0x06 :: frameOf p ++ r =
      0x06 :: 0x41 :: byteOfNat p.length :: (p ++ checksum (byteOfNat p.length) p :: r) := by
    simp [frameOf, Config.startByte]
  have hstart := startParse_readsAt (x := []) 5 (by rw [hv, hbytes, List.append_nil])
  obtain ⟨hres, -⟩ := hstart.frame (n := n) (byteOfNat_toNat _ (by omega)).symm
  exact ⟨_, hn, hres.trans (congrArg some (if_pos rfl))⟩

/-! ### The reads of a parse (R80) -/

/-- The reads of a parse that ended in t. -/
def ParseReads (t : State) (new : List Event) : Prop :=
  (∃ r, r ≠ [0x06] ∧ new = [.rx 1 r]) ∨
  (∃ r, r ≠ [0x41] ∧ new = [.rx 1 [0x06], .rx 1 r]) ∨
  new = [.rx 1 [0x06], .rx 1 [0x41], .rx 1 []] ∨
  (∃ (len : Byte) (body : List Byte),
    new = [.rx 1 [0x06], .rx 1 [0x41], .rx 1 [len], .rx (len.toNat + 1) body] ∧
    t.declaredSize = len ∧ t.rxbuf = body)

/-- The body is one read, short or not, and the check reads nothing (R78, R79). -/
theorem drive_body_reads (n : Nat) {s : State} (hp : s.phase = .rxBody) (ht : ParseOp s.task) :
    (drive (n + 2) s).declaredSize = s.declaredSize ∧
      (drive (n + 2) s).rxbuf = s.readBytes (s.declaredSize.toNat + 1) ∧
      (drive (n + 2) s).trace =
        s.trace ++ [.rx (s.declaredSize.toNat + 1) (s.readBytes (s.declaredSize.toNat + 1))] := by
  by_cases h : (s.readBytes (s.declaredSize.toNat + 1)).length < s.declaredSize.toNat + 1
  · rw [drive_shortBody ht hp h]
    simp
  · rw [drive_wholeBody ht hp h]
    simp [bodyTaken]

/-- A parse on its own that goes on, in phase p, after the interactions ev. -/
structure ReadOn (p : Phase) (ev : List Event) (s u : State) : Prop where
  phase : u.phase = p
  task : ParseOp u.task
  trace : u.trace = s.trace ++ ev

section
variable {s u : State} {ev : List Event} (n : Nat)

/-- R75 with the ACK. -/
theorem ReadOn.ack (h : ReadOn .rxAck ev s u) (hread : u.readBytes 1 = [0x06]) :
    ∃ v, drive (n + 5) u = drive (n + 4) v ∧ ReadOn .rxStart (ev ++ [.rx 1 [0x06]]) s v := by
  refine ⟨_, (drive_ack n u h.phase h.task).trans (if_pos hread), ?_, ?_, ?_⟩
  · simp [ackReceived]
  · simpa [ackReceived] using h.task
  · simp [ackReceived, hread, h.trace]

/-- R76 with the start byte. -/
theorem ReadOn.start (h : ReadOn .rxStart ev s u) (hread : u.readBytes 1 = [0x41]) :
    ∃ v, drive (n + 4) u = drive (n + 3) v ∧ ReadOn .rxLen (ev ++ [.rx 1 [0x41]]) s v := by
  refine ⟨_, (drive_start n u h.phase h.task).trans (if_pos hread), ?_⟩
  rw [startStep_start hread]
  exact ⟨by simp, by simpa using h.task, by simp [hread, h.trace]⟩

/-- R77 with a length byte. -/
theorem ReadOn.len {b : Byte} (h : ReadOn .rxLen ev s u) (hread : u.readBytes 1 = [b]) :
    ∃ v, drive (n + 3) u = drive (n + 2) v ∧ ReadOn .rxBody (ev ++ [.rx 1 [b]]) s v ∧
      v.declaredSize = b := by
  refine ⟨_, (drive_len n u h.phase h.task).trans (if_neg (by simp [hread])), ?_⟩
  simp only [lenStep, hread]
  exact ⟨⟨by simp, by simpa using h.task, by simp [hread, h.trace]⟩, by simp⟩

/-- A parse reads in order, whatever the environment answers. -/
theorem ReadOn.parseReads (h : ReadOn .rxAck [] s u) :
    ∃ new, (drive (n + 5) u).trace = s.trace ++ new ∧ ParseReads (drive (n + 5) u) new := by
  by_cases hack : u.readBytes 1 = [0x06]
  case neg =>
    rw [drive_noAck h.task h.phase hack]
    exact ⟨_, by simp [h.trace], .inl ⟨_, hack, rfl⟩⟩
  obtain ⟨v, hv, h⟩ := h.ack n hack
  rw [hv]
  by_cases hstart : v.readBytes 1 = [0x41]
  case neg =>
    rw [drive_noStart h.task h.phase hstart]
    exact ⟨_, by simp [h.trace], .inr (.inl ⟨_, hstart, rfl⟩)⟩
  obtain ⟨w, hw, h⟩ := h.start n hstart
  rw [hw]
  obtain hnone | ⟨b, hlen⟩ := readBytes_one w
  · rw [drive_noLen h.task h.phase hnone]
    exact ⟨_, by simp [h.trace, hnone], .inr (.inr (.inl rfl))⟩
  · obtain ⟨x, hx, h, rfl⟩ := h.len n hlen
    obtain ⟨hsize, hbody, htrace⟩ := drive_body_reads n h.phase h.task
    rw [hx]
    exact ⟨_, by rw [htrace, h.trace]; simp, .inr (.inr (.inr ⟨_, _, rfl, hsize, hbody⟩))⟩

end

/-- Settles O26: `PARSE` begins at `RX_ACK` with no interaction. -/
theorem parseReadsInOrder : Obligations.ParseReadsInOrder := by
  intro s
  obtain ⟨n, hn⟩ := exec_parse s
  have hbegin : ReadOn .rxAck [] s (startParse { s with task := .parse }) :=
    ⟨rfl, .inl rfl, (List.append_nil _).symm⟩
  obtain ⟨new, htrace, hreads⟩ := hbegin.parseReads n
  exact ⟨_, new, hn, htrace, hreads⟩

end Sys2Proof.Machine
end

section
namespace Sys2Proof.Machine

/-! ### A line operation on its own, driven to its end (R82, R84, R86) -/

/-- What no line operation on its own writes: the link, the wake loop, the sweep, `last_result`, the
configuration. -/
def State.besideLine (s : State) :=
  ((s.link, s.portHeld), (s.wakeCount, s.wakeLast), (s.sweepIdx, s.sweepMap), s.lastResult,
    (s.registry, s.hostq, s.resetIn))

/-- The request registers, which only the start of a register access writes. -/
def State.request (s : State) := (s.reqKind, s.reqAddr, s.reqSize, s.reqData)

/-- What a line operation does not write before it ends. -/
def State.untilLineEnds (s : State) := (s.task, s.err, s.besideLine, s.request)

/-- How many steps a line operation takes at most, from its phase on; 0 outside its phases (R14, R80, R82). -/
def State.stepsLeft (s : State) : Nat :=
  match s.phase with
  | .txFlush => 8
  | .txFrame => 7
  | .rxAck => 6
  | .rxStart => 5
  | .rxLen => 4
  | .rxBody => 3
  | .check => if s.rsp = none then 2 else 1
  | .idle | .openPort | .hsWakeTx | .hsWakeRx | .hsSyncTx | .hsSyncRx | .decode | .closePort => 0

/-- From s to u a line operation with k steps left has done some of its work: what it writes only at its end
stands, and once the frame is sent `txbuf` too. -/
structure LineWork (k : Nat) (s u : State) : Prop where
  same : u.untilLineEnds = s.untilLineEnds
  txbuf : k ≤ 6 → u.txbuf = s.txbuf

/-- One step of a line operation with k steps left: work, and then it goes on, raises an error or returns. -/
inductive LineStep (k : Nat) (s : State) : State → Prop
  | goesOn {u : State} (w : LineWork k s u) (left : 0 < u.stepsLeft ∧ u.stepsLeft < k) : LineStep k s u
  | raised {u : State} {e : Fail} (w : LineWork k s u) : LineStep k s (raise e u)
  | returned {u : State} {v : OkVal} (w : LineWork k s u) : LineStep k s (finishOp (.ok v) u)

theorem LineWork.refl (k : Nat) (s : State) : LineWork k s s := ⟨rfl, fun _ => rfl⟩

/-! The phases of a line operation, each a line step. -/

section
variable {s : State}

theorem flushStep_lineStep (s : State) : LineStep 8 s (flushStep s) := by
  unfold flushStep
  dsimp only
  split
  · exact .raised ⟨rfl, fun _ => rfl⟩
  · rw [buildFrame_eq]
    exact .goesOn ⟨rfl, by simp⟩ (by simp [State.stepsLeft])

theorem transmit_lineStep {u : State} (w : LineWork 7 s u) : LineStep 7 s (transmit u) := by
  have hsent : LineWork 7 s (txWrite u.txbuf u) := ⟨w.same, by simp⟩
  unfold transmit
  dsimp only
  split
  · exact .raised hsent
  · exact .goesOn ⟨w.same, by simp⟩ (by simp [State.stepsLeft])

theorem sendFrame_lineStep (p : List Byte) (s : State) : LineStep 7 s (sendFrame p s) := by
  unfold sendFrame
  split
  · exact .raised (.refl 7 s)
  · rw [buildFrame_eq]
    exact transmit_lineStep ⟨rfl, by simp⟩

theorem ackReceived_lineStep (s : State) : LineStep 6 s (ackReceived (rxRead 1 s)) :=
  .goesOn ⟨rfl, fun _ => rfl⟩ (by simp [State.stepsLeft, ackReceived])

theorem nakReceived_lineStep (s : State) : LineStep 6 s (nakReceived (rxRead 1 s)) :=
  .raised ⟨rfl, fun _ => rfl⟩

theorem ackMissed_lineStep (r : List Byte) (s : State) : LineStep 6 s (ackMissed r (rxRead 1 s)) := by
  unfold ackMissed
  split
  · exact .raised ⟨rfl, fun _ => rfl⟩
  · exact .raised ⟨rfl, fun _ => rfl⟩

theorem startStep_lineStep (s : State) : LineStep 5 s (startStep s) := by
  unfold startStep
  split
  · exact .raised ⟨rfl, fun _ => rfl⟩
  · split
    · exact .raised ⟨rfl, fun _ => rfl⟩
    · exact .goesOn ⟨rfl, fun _ => rfl⟩ (by simp [State.stepsLeft])

theorem lenStep_lineStep (s : State) : LineStep 4 s (lenStep s) := by
  unfold lenStep
  split
  · exact .raised ⟨rfl, fun _ => rfl⟩
  · exact .goesOn ⟨rfl, fun _ => rfl⟩ (by simp [State.stepsLeft])

theorem bodyStep_lineStep (s : State) : LineStep 3 s (bodyStep s) := by
  unfold bodyStep
  dsimp only
  split
  · exact .raised ⟨rfl, fun _ => rfl⟩
  · exact .goesOn ⟨rfl, fun _ => rfl⟩ (by simp [State.stepsLeft])

/-- The parse returns to the operation itself, or to its register access (R79). -/
theorem parseReturn_lineStep {u : State} (p : List Byte) (w : LineWork 2 s u) (hp : u.phase = .check)
    (ht : LineOp u.task) : LineStep 2 s (parseReturn p u) := by
  have hplain (h : ParseOp u.task) : LineStep 2 s (parseReturn p u) :=
    parseReturn_plain p u h ▸ .returned w
  have haccess (h : u.task = .regRead ∨ u.task = .regWrite) : LineStep 2 s (parseReturn p u) := by
    rw [parseReturn_register p (h.imp_right .inl)]
    exact .goesOn ⟨w.same, w.txbuf⟩ (by simp [State.stepsLeft, hp])
  obtain h | h | h | h := ht
  · exact hplain (.inl h)
  · exact hplain (.inr h)
  · exact haccess (.inl h)
  · exact haccess (.inr h)

theorem checkFrame_lineStep (ht : LineOp s.task) : LineStep 2 s (checkFrame s) := by
  simp only [checkFrame, ckRun_eq]
  split
  · exact .raised ⟨rfl, fun _ => rfl⟩
  · split
    · exact .raised ⟨rfl, fun _ => rfl⟩
    · exact parseReturn_lineStep _ ⟨rfl, fun _ => rfl⟩ rfl ht

/-- A register access on its own returns its data (R84). -/
theorem readReturn_local (rsp : List Byte) (ht : LineOp s.task) :
    readReturn rsp s = finishOp (.ok (.bytes (s.readData rsp))) s := by
  rcases ht with h | ⟨q, h⟩ | h | h <;> simp only [readReturn, h]

/-- A write on its own returns `Ok(())` (R86). -/
theorem writeReturn_local (ht : LineOp s.task) : writeReturn s = finishOp (.ok .unit) s := by
  rcases ht with h | ⟨q, h⟩ | h | h <;> simp only [writeReturn, h]

theorem echoCheck_lineStep (p : List Byte) (ht : LineOp s.task) : LineStep 1 s (echoCheck p s) := by
  unfold echoCheck
  split
  · split
    · exact .raised (.refl 1 s)
    · exact readReturn_local p ht ▸ .returned (.refl 1 s)
  · split
    · exact .raised (.refl 1 s)
    · exact writeReturn_local ht ▸ .returned (.refl 1 s)

theorem LineOp.runs {k : Task} (h : LineOp k) : k ≠ .idle := by
  obtain rfl | ⟨q, rfl⟩ | rfl | rfl := h <;> simp

/-- One step of a line operation in its phases. -/
theorem advance_lineStep (ht : LineOp s.task) (hk : 0 < s.stepsLeft) :
    LineStep s.stepsLeft s (advance s) := by
  have hrun := ht.runs
  cases hp : s.phase with
  | idle | openPort | hsWakeTx | hsWakeRx | hsSyncTx | hsSyncRx | decode | closePort =>
    simp [State.stepsLeft, hp] at hk
  | txFlush =>
    simp only [State.stepsLeft, hp, advance_txFlush s hrun hp]
    exact flushStep_lineStep s
  | txFrame =>
    simp only [State.stepsLeft, hp]
    by_cases hf : ∃ p, p.length ≤ 100 ∧ s.txbuf = frameOf p
    · obtain ⟨p, hl, hb⟩ := hf
      rw [advance_txFrame s p hrun hp hl hb]
      exact sendFrame_lineStep p s
    · rw [advance_txFrame_raw s hrun hp fun p hl hb => hf ⟨p, hl, hb⟩]
      exact transmit_lineStep (.refl 7 s)
  | rxAck =>
    simp only [State.stepsLeft, hp, advance_rxAck s hrun hp]
    split
    · exact ackReceived_lineStep s
    · split
      · exact nakReceived_lineStep s
      · exact ackMissed_lineStep _ s
  | rxStart =>
    simp only [State.stepsLeft, hp, advance_rxStart s hrun hp]
    exact startStep_lineStep s
  | rxLen =>
    simp only [State.stepsLeft, hp, advance_rxLen s hrun hp]
    exact lenStep_lineStep s
  | rxBody =>
    simp only [State.stepsLeft, hp, advance_rxBody s hrun hp]
    exact bodyStep_lineStep s
  | check =>
    cases hr : s.rsp with
    | none =>
      simp only [State.stepsLeft, hp, hr, advance_check s hrun hp hr, if_true]
      exact checkFrame_lineStep ht
    | some p =>
      simp only [State.stepsLeft, hp, hr, advance_echo s p hrun hp hr]
      exact echoCheck_lineStep p ht

end

/-! ### What a line operation on its own leaves alone -/

/-- A line operation on its own has run from s to its end t: its result, and what stands as it stood. -/
structure LineEnds (s t : State) : Prop where
  task : t.task = .idle
  outcome : ∃ r, t.opResult = some r ∧ ((∃ v, r = .ok v) ∧ t.err = s.err ∨ ∃ e, r = .err e ∧ t.err = some e)
  beside : t.besideLine = s.besideLine
  request : t.request = s.request
  txbuf : s.stepsLeft ≤ 6 → t.txbuf = s.txbuf

/-! What the peer appends at the end of a step is no register of it (R34). -/

@[simp] theorem stepsLeft_endStep (s : State) : (endStep s).stepsLeft = s.stepsLeft := by
  simp [State.stepsLeft]

theorem LineWork.endStep {k : Nat} {s u : State} (w : LineWork k s u) : LineWork k s (endStep u) := by
  obtain ⟨hsame, hbuf⟩ := w
  exact ⟨by simpa [State.untilLineEnds, State.besideLine, State.request] using hsame, by simpa using hbuf⟩

theorem LineEnds.endStep {s t : State} (h : LineEnds s t) : LineEnds s (endStep t) := by
  obtain ⟨htask, hout, hbeside, hreq, hbuf⟩ := h
  exact ⟨by simpa using htask, by simpa using hout, by simpa [State.besideLine] using hbeside,
    by simpa [State.request] using hreq, by simpa using hbuf⟩

section
variable {s u : State}

/-- An error ends it, and is its result (R10, R25). -/
theorem LineWork.raise (w : LineWork s.stepsLeft s u) (ht : LineOp s.task) (e : Fail) :
    LineEnds s (raise e u) := by
  obtain ⟨hsame, hbuf⟩ := w
  simp only [State.untilLineEnds, Prod.mk.injEq] at hsame
  obtain ⟨htask, -, hbeside, hreq⟩ := hsame
  rw [raise_local e u (htask ▸ ht)]
  exact ⟨rfl, ⟨_, rfl, .inr ⟨_, rfl, rfl⟩⟩, hbeside, hreq, hbuf⟩

/-- A return ends it, and leaves `err` (log 14). -/
theorem LineWork.finishOp (w : LineWork s.stepsLeft s u) (v : OkVal) :
    LineEnds s (finishOp (.ok v) u) := by
  obtain ⟨hsame, hbuf⟩ := w
  simp only [State.untilLineEnds, Prod.mk.injEq] at hsame
  obtain ⟨-, herr, hbeside, hreq⟩ := hsame
  exact ⟨rfl, ⟨_, rfl, .inl ⟨⟨_, rfl⟩, herr⟩⟩, hbeside, hreq, hbuf⟩

/-- With work done before it, it ends from there too. -/
theorem LineEnds.after {t : State} (h : LineEnds u t) (w : LineWork s.stepsLeft s u)
    (hle : u.stepsLeft ≤ s.stepsLeft) : LineEnds s t := by
  obtain ⟨htask, hout, hbeside, hreq, hbuf⟩ := h
  obtain ⟨hsame, hbuf'⟩ := w
  simp only [State.untilLineEnds, Prod.mk.injEq] at hsame
  obtain ⟨-, herr, hbeside', hreq'⟩ := hsame
  exact ⟨htask, herr ▸ hout, hbeside.trans hbeside', hreq.trans hreq',
    fun hk => (hbuf (hle.trans hk)).trans (hbuf' hk)⟩

/-- Driven for the steps it has left, it ends. -/
theorem drive_lineEnds (n : Nat) {s : State} (ht : LineOp s.task) (hk : 0 < s.stepsLeft) (hn : s.stepsLeft ≤ n) :
    LineEnds s (drive n s) := by
  induction n generalizing s with
  | zero => omega
  | succ n ih =>
    have hrun := ht.runs
    have hdone {t : State} (h : LineEnds s t) : LineEnds s (drive n (Machine.endStep t)) := by
      rw [drive_done _ _ h.endStep.task]
      exact h.endStep
    rw [drive_more n s hrun, tick]
    have hstep := advance_lineStep ht hk
    generalize advance s = t at hstep
    cases hstep with
    | goesOn w hleft =>
      obtain ⟨hruns, hnearer⟩ := hleft
      have htask : (Machine.endStep t).task = s.task := congrArg Prod.fst w.endStep.same
      exact (ih (htask ▸ ht) (by simpa using hruns) (by simp; omega)).after w.endStep (by simp; omega)
    | raised w => exact hdone (w.raise ht _)
    | returned w => exact hdone (w.finishOp _)

end

/-- What it leaves alone, counted from a state s that its start u agrees with outside the request registers. -/
theorem LineEnds.frames {s u t : State} (h : LineEnds u t) (hbeside : u.besideLine = s.besideLine)
    (herr : u.err = s.err) :
    sameLink s t ∧ sameHandshake s t ∧ sameSweep s t ∧ t.lastResult = s.lastResult ∧ sameInputs s t ∧
      (∃ r, t.opResult = some r ∧
        ((∃ v, r = .ok v) ∧ t.err = s.err ∨ ∃ e, r = .err e ∧ t.err = some e)) := by
  have hb := h.beside.trans hbeside
  simp only [State.besideLine, Prod.mk.injEq] at hb
  obtain ⟨hlink, hwake, hsweep, hlast, hinputs⟩ := hb
  exact ⟨hlink, hwake, hsweep, hlast, hinputs, herr ▸ h.outcome⟩

theorem sameRequest_iff {s t : State} : sameRequest s t ↔ t.request = s.request := by
  simp only [sameRequest, State.request, Prod.mk.injEq]

section
variable (s : State)

/-- `PARSE` has six steps left when it begins: `txbuf` is not written. -/
theorem parse_lineEnds :
    LineEnds (startParse { s with task := .parse }) (drive s.opFuel (startParse { s with task := .parse })) :=
  drive_lineEnds _ (.inl rfl) (by simp [State.stepsLeft, startParse])
    (by simp [State.stepsLeft, startParse, State.opFuel]; omega)

/-- A transaction has all its steps left when it begins. -/
theorem startTransaction_lineEnds {u : State} (ht : LineOp u.task) :
    LineEnds (startTransaction u) (drive s.opFuel (startTransaction u)) :=
  drive_lineEnds _ ht (by simp [State.stepsLeft, startTransaction])
    (by simp [State.stepsLeft, startTransaction, State.opFuel]; omega)

/-- `REG_READ` refuses the size, or reads with the request registers written (R84). -/
theorem startRead_lineEnds (addr : Addr) (size : Int) :
    ∃ u, LineEnds u (drive s.opFuel (startRead addr size { s with task := .regRead })) ∧
      u.besideLine = s.besideLine ∧ u.err = s.err ∧ u.reqData = s.reqData := by
  unfold startRead
  split
  · have hraised := (LineWork.refl _ { s with task := .regRead }).raise (.inr (.inr (.inl rfl))) (failSize size)
    rw [drive_done _ _ hraised.task]
    exact ⟨_, hraised, rfl, rfl, rfl⟩
  · exact ⟨_, startTransaction_lineEnds s (.inr (.inr (.inl rfl))), rfl, rfl, rfl⟩

end

/-- Settles O30: each of the four operations is driven to its end from where it begins. -/
theorem transactionFrames : Obligations.TransactionFrames := by
  rintro s t i h (rfl | ⟨p, rfl⟩ | ⟨addr, size, rfl⟩ | ⟨addr, data, rfl⟩) <;> cases h
  · have hends := parse_lineEnds s
    obtain ⟨hlink, hwake, hsweep, hlast, hinputs, hout⟩ := hends.frames (s := s) rfl rfl
    exact ⟨hlink, hwake, hsweep, hlast, hinputs, rfl, hout,
      fun _ => ⟨sameRequest_iff.2 hends.request, hends.txbuf (by simp [State.stepsLeft, startParse])⟩,
      nofun, nofun⟩
  · have hends := startTransaction_lineEnds s (u := { s with task := .execute p }) (.inr (.inl ⟨p, rfl⟩))
    obtain ⟨hlink, hwake, hsweep, hlast, hinputs, hout⟩ := hends.frames (s := s) rfl rfl
    exact ⟨hlink, hwake, hsweep, hlast, hinputs, rfl, hout, nofun,
      fun _ _ => sameRequest_iff.2 hends.request, nofun⟩
  · obtain ⟨u, hends, hbeside, herr, hdata⟩ := startRead_lineEnds s addr size
    obtain ⟨hlink, hwake, hsweep, hlast, hinputs, hout⟩ := hends.frames hbeside herr
    exact ⟨hlink, hwake, hsweep, hlast, hinputs, rfl, hout, nofun, nofun,
      fun _ _ _ => (congrArg (·.2.2.2) hends.request).trans hdata⟩
  · have hends := startTransaction_lineEnds s (u := { s with
      task := .regWrite, reqKind := .write, reqAddr := addr, reqSize := sizeReg data.length,
      reqData := dataReg data, callData := data }) (.inr (.inr (.inr rfl)))
    obtain ⟨hlink, hwake, hsweep, hlast, hinputs, hout⟩ := hends.frames (s := s) rfl rfl
    exact ⟨hlink, hwake, hsweep, hlast, hinputs, rfl, hout, nofun, nofun, nofun⟩

end Sys2Proof.Machine
end

section
namespace Sys2Proof.Machine

/-! ### What a parse makes of each content of `rxq` -/

/-- Five draws that bring nothing. -/
theorem incoming_quiet {s : State} {d1 d2 d3 d4 d5 : Draw} {rest : List Draw}
    (hs : s.script = d1 :: d2 :: d3 :: d4 :: d5 :: rest) (h1 : d1.brings []) (h2 : d2.brings [])
    (h3 : d3.brings []) (h4 : d4.brings []) (h5 : d5.brings []) : s.incoming 5 = [] := by
  simp only [Draw.brings] at h1 h2 h3 h4 h5
  simp [State.incoming, hs, peerBytes, h1, h2, h3, h4, h5]

/-- What it finds when it begins, with nothing more coming. -/
theorem startParse_readsAt_quiet {s : State} {l : List Byte} (h : s.incoming 5 = []) (hl : s.rxq = l) :
    ReadsAt .rxAck 5 l [] (startParse { s with task := .parse }) := by
  have hfinds := startParse_readsAt (x := []) 5 (hl.trans (List.append_nil l).symm)
  rwa [h] at hfinds

/-- An error of `PARSE` stands in `err` too (R10, R25). -/
theorem exec_parse_err {s t : State} (h : exec .parse s = .next t) {e : Err} (he : t.opResult = some (.err e)) :
    t.err = some e := by
  obtain ⟨-, -, -, -, -, -, ⟨r, hr, hout⟩, -⟩ := transactionFrames s t .parse h (.inl rfl)
  obtain rfl : r = .err e := Option.some.inj (hr.symm.trans he)
  obtain ⟨⟨v, hv⟩, -⟩ | ⟨e', he', herr⟩ := hout
  · cases hv
  · cases he'
    exact herr

/-- The verdict on a body whose checksum is known (R79). -/
theorem verdict_of_sum {len sum : Byte} {q : List Byte} (ck : Byte) (hlen : q.length = len.toNat)
    (hsum : sum.toNat = (q.length + (q.map BitVec.toNat).sum) % 256) :
    verdict len q ck = if ck = sum then .ok (.bytes q) else .err { fail := failChecksum ck sum } := by
  have hbyte : byteOfNat q.length = len := by rw [hlen, byteOfNat_self]
  obtain rfl : sum = checksum len q := by
    rw [← hbyte]
    exact BitVec.eq_of_toNat_eq (hsum.trans (checksum_toNat (hlen ▸ Nat.le_of_lt_succ len.isLt)).symm)
  rfl

/-- Settles O24: the parse goes on over the bytes it awaits, and ends at the first that is another or missing. -/
theorem parseClassifies : Obligations.ParseClassifies := by
  intro s d1 d2 d3 d4 d5 rest hs h1 h2 h3 h4 h5
  obtain ⟨n, hn⟩ := exec_parse s
  have hfinds {l : List Byte} (hl : s.rxq = l) := startParse_readsAt_quiet (incoming_quiet hs h1 h2 h3 h4 h5) hl
  refine ⟨_, hn, fun e => exec_parse_err hn, ?_, ?_, ?_, ?_, ?_, ?_, ?_, ?_⟩
  · intro hq
    exact ((hfinds hq).noAck (by simp)).1
  · intro r hq
    exact ((hfinds hq).noAck (by simp)).symm
  · intro b r hq hb hnak
    have hfail : ackFail (some b) = failUnexpectedAck b := if_neg hnak
    have hends := (hfinds hq).noAck (n := n) (by simpa using hb)
    rw [List.take_succ_cons, List.head?_cons, hfail] at hends
    exact hends.symm
  · intro hq
    obtain ⟨u, hu, hstart⟩ := (hfinds hq).ack
    rw [hu]
    exact (hstart.noStart (by simp)).1
  · intro b r hq hb
    obtain ⟨u, hu, hstart⟩ := (hfinds hq).ack
    rw [hu]
    exact (hstart.noStart (by simpa using hb)).symm
  · intro hq
    obtain ⟨u, hu, hstart⟩ := (hfinds hq).ack
    obtain ⟨v, hv, hsize⟩ := hstart.start
    rw [hu, hv]
    exact hsize.noLen.1
  · intro len r hq hl
    obtain ⟨u, hu, hstart⟩ := (hfinds hq).ack
    obtain ⟨v, hv, hsize⟩ := hstart.start
    obtain ⟨w, hw, hbody, rfl⟩ := hsize.len
    rw [hu, hv, hw]
    exact (hbody.shortBody hl).1
  · intro len q ck r sum hq hlen hsum
    obtain ⟨hres, hrxq⟩ := (hfinds hq).frame (n := n) hlen
    rw [verdict_of_sum ck hlen hsum] at hres
    exact ⟨hrxq rfl, fun hck => by rw [hres, if_neg hck]; rfl, fun hck => by rw [hres, if_pos hck]⟩

end Sys2Proof.Machine
end

section
namespace Sys2Proof.Machine

/-! ### A transaction up to its frame (R74, R82) -/

/-- The state in which an internal operation run on its own begins: its own task, above whatever runs. -/
def State.under (k : Task) (s : State) : State := { s with task := k }

/-- It is driven with steps to spare (R135): a transaction takes 7, an echo check one more. -/
theorem runOp_drive (k : Task) (start : State → State) (s : State) :
    ∃ n, runOp k start s = (drive (n + 8) (start (s.under k))).under s.task :=
  ⟨32 + 9 * s.registry.length, by
    rw [show 32 + 9 * s.registry.length + 8 = s.opFuel by simp only [State.opFuel]; omega]
    rfl⟩

/-- The state in which `EXECUTE(p)` on its own begins: its flush is next (R82). -/
def State.executing (p : List Byte) (s : State) : State := startTransaction (s.under (.execute p))

@[simp] theorem executing_phase (p : List Byte) (s : State) : (s.executing p).phase = .txFlush := rfl
@[simp] theorem executing_task (p : List Byte) (s : State) : (s.executing p).task = .execute p := rfl
@[simp] theorem executing_txPayload (p : List Byte) (s : State) : (s.executing p).txPayload = p := rfl
@[simp] theorem executing_trace (p : List Byte) (s : State) : (s.executing p).trace = s.trace := rfl

theorem executing_lineOp (p : List Byte) (s : State) : LineOp (s.executing p).task := .inr (.inl ⟨p, rfl⟩)

/-- `EXECUTE` is driven from there to its end. -/
theorem exec_execute (p : List Byte) (s : State) :
    ∃ n, exec (.execute p) s = .next ((drive (n + 8) (s.executing p)).under s.task) := by
  obtain ⟨n, hn⟩ := runOp_drive (.execute p) startTransaction s
  exact ⟨n, congrArg Host.Outcome.next hn⟩

/-- States with the same draws before them have the same second draw. -/
theorem afterDraw_nextDraw_congr {s u : State} (hs : u.script = s.script) (hd : u.draws = s.draws) :
    u.afterDraw.nextDraw = s.afterDraw.nextDraw := by
  cases h : s.script <;> simp [State.nextDraw, State.afterDraw, hs, hd, h]

/-- The flush has emptied `rxq`, and the frame of p is about to be sent (R74, R82). -/
def State.frameBuilt (p : List Byte) (s : State) : State :=
  { s with
    phase := .txFrame
    acc := checksum (byteOfNat p.length) p
    txbuf := frameOf p
    rxq := []
    trace := s.trace ++ [.flush] }

@[simp] theorem frameBuilt_phase (p : List Byte) (s : State) : (s.frameBuilt p).phase = .txFrame := rfl
@[simp] theorem frameBuilt_task (p : List Byte) (s : State) : (s.frameBuilt p).task = s.task := rfl
@[simp] theorem frameBuilt_txbuf (p : List Byte) (s : State) : (s.frameBuilt p).txbuf = frameOf p := rfl
@[simp] theorem frameBuilt_trace (p : List Byte) (s : State) :
    (s.frameBuilt p).trace = s.trace ++ [.flush] := rfl

/-- The frame is offered to the port at the draw after the flush's. -/
theorem frameBuilt_nextDraw (p : List Byte) (s : State) :
    (endStep (s.frameBuilt p)).nextDraw = s.afterDraw.nextDraw :=
  (endStep_nextDraw _).trans (afterDraw_nextDraw_congr rfl rfl)

/-- A frame of which the port accepts only a part (R82, R113). -/
theorem sendFrame_partial {s : State} {p : List Byte} (hl : p.length ≤ 100) (ha : s.nextDraw.accept < p.length + 3) :
    sendFrame p s = raise (failWriteIncomplete s.nextDraw.accept (p.length + 3)) { s with
      acc := checksum (byteOfNat p.length) p
      txbuf := frameOf p
      rxq := s.rxq ++ s.nextDraw.arrive
      trace := s.trace ++ [.tx (frameOf p) s.nextDraw.accept]
      phase := .txFrame } := by
  have hfits : tooLarge p = false := decide_eq_false (Nat.not_lt.2 hl)
  have hdraw : ({ s with acc := checksum (byteOfNat p.length) p, txbuf := frameOf p, phase := .txFrame } :
      State).nextDraw = s.nextDraw := rfl
  have hcount : min s.nextDraw.accept (p.length + 3) = s.nextDraw.accept := min_eq_left ha.le
  simp only [sendFrame, hfits, Bool.false_eq_true, if_false, buildFrame_eq, transmit, txWrite, State.accepted,
    frameOf_length, hdraw, hcount, if_pos ha]

section
variable {s : State} {p : List Byte} (n : Nat)

/-- With a payload that fits, a transaction flushes, builds its frame and sends it (R82). -/
theorem drive_framed (hp : s.phase = .txFlush) (ht : s.task ≠ .idle) (hs : s.txPayload = p) (hl : p.length ≤ 100) :
    drive (n + 2) s = drive n (endStep (sendFrame p (endStep (s.frameBuilt p)))) := by
  have hfits : tooLarge p = false := decide_eq_false (Nat.not_lt.2 hl)
  have hflush : flushStep s = s.frameBuilt p := by
    simp [flushStep, hs, hfits, buildFrame_eq, rxFlush, State.frameBuilt]
  rw [drive_more _ s ht, tick, advance_txFlush s ht hp, hflush, drive_more n _ (by simpa), tick,
    advance_txFrame _ p (by simpa) (by simp) hl (by simp), requestSent]

/-- With one that does not, a transaction run on its own ends behind its flush (R74, R82). -/
theorem drive_refused (hp : s.phase = .txFlush) (ht : LineOp s.task) (hs : s.txPayload = p) (hl : 100 < p.length) :
    drive (n + 1) s = endStep (finishOp (.err { fail := failTooLarge p.length })
      (writeErr (failTooLarge p.length) (rxFlush s))) := by
  have hlarge : tooLarge p = true := decide_eq_true hl
  have hflush : flushStep s = raise (failTooLarge p.length) (rxFlush s) := by
    simp only [flushStep, hs, hlarge, if_true]
  rw [drive_more n s ht.runs, tick, advance_txFlush s ht.runs hp, hflush, raise_local _ _ (by exact ht)]
  exact drive_done _ _ (by simp)

/-- A transaction run on its own whose frame the port accepts in part ends there, and nothing is read (R82). -/
theorem drive_partial (ht : LineOp s.task) (hl : p.length ≤ 100) (ha : s.nextDraw.accept < p.length + 3) :
    drive n (endStep (sendFrame p s)) =
      endStep (finishOp (.err { fail := failWriteIncomplete s.nextDraw.accept (p.length + 3) })
        (writeErr (failWriteIncomplete s.nextDraw.accept (p.length + 3)) { s with
          acc := checksum (byteOfNat p.length) p
          txbuf := frameOf p
          rxq := s.rxq ++ s.nextDraw.arrive
          trace := s.trace ++ [.tx (frameOf p) s.nextDraw.accept]
          phase := .txFrame })) := by
  rw [sendFrame_partial hl ha, raise_local _ _ (by exact ht)]
  exact drive_done _ _ (by simp)

end

/-- Settles O28: `drive_refused`, for a payload of its own and for a write's. -/
theorem longPayloadFlushesOnly : Obligations.LongPayloadFlushesOnly := by
  refine fun s p addr data => ⟨fun h => ?_, fun h => ?_⟩
  · obtain ⟨n, hn⟩ := exec_execute p s
    rw [hn, drive_refused (n + 7) rfl (executing_lineOp p s) (executing_txPayload p s) h, State.under,
      endStep_withTask]
    rfl
  · obtain ⟨n, hn⟩ := runOp_drive .regWrite (startWrite addr data) s
    have hpay : (startWrite addr data (s.under .regWrite)).txPayload =
        writeReqPayload addr (sizeReg data.length) data := rfl
    have hlen : (writeReqPayload addr (sizeReg data.length) data).length = 5 + data.length := by
      simp only [writeReqPayload, List.length_append, List.length_cons, List.length_nil]
    rw [drive_refused (n + 7) rfl (.inr (.inr (.inr rfl))) hpay (by omega), State.under, endStep_withTask, hlen] at hn
    exact ⟨sizeReg data.length, dataReg data, fun h255 => if_pos h255, dataReg_length_le data,
      congrArg Host.Outcome.next hn⟩

/-- Settles O20: the second step's draw decides how much of the frame is accepted. -/
theorem partialFrameIncomplete : Obligations.PartialFrameIncomplete := by
  rintro s p c hl rfl hc
  obtain ⟨n, hn⟩ := exec_execute p s
  have hop := executing_lineOp p s
  have hdraw : (endStep ((s.executing p).frameBuilt p)).nextDraw = s.afterDraw.nextDraw :=
    (frameBuilt_nextDraw p _).trans (afterDraw_nextDraw_congr rfl rfl)
  rw [drive_framed (n + 6) rfl hop.runs (executing_txPayload p s) hl,
    drive_partial (n + 6) (by simpa using hop) hl (by rwa [hdraw]), hdraw] at hn
  refine ⟨_, [.flush, .tx (frameOf p) s.afterDraw.nextDraw.accept], hn, ?_, ?_, ?_, ?_, ?_⟩
  · simp [State.under, failWriteIncomplete]
  · simp [State.under, Result.errOf, writeErr, finishOp]
  · simp [State.under]
  · simp [Event.isRx]
  · simp [State.under, State.txLog, Event.sent]

end Sys2Proof.Machine
end

section
namespace Sys2Proof.Machine

/-! ### A response answered in full, step by step (R75 to R79) -/

section
variable {s : State} {d : Draw} {ds : List Draw} {l m : List Byte} {k : Nat}

/-- A read gives what stands first in `rxq` and what arrives, when that is l (R32). -/
theorem readBytes_answered (hs : s.script = d :: ds) (hq : s.rxq ++ d.arrive = l ++ m) (hk : l.length = k) :
    s.readBytes k = l := by
  subst hk
  rw [readBytes_of _ s d ds hs, hq, List.take_left]

/-- What follows l stays in `rxq`. -/
theorem rxRead_answered (hs : s.script = d :: ds) (hq : s.rxq ++ d.arrive = l ++ m) (hk : l.length = k) :
    rxRead k s = { s with rxq := m, trace := s.trace ++ [.rx k l] } := by
  subst hk
  rw [rxRead_of _ s d ds hs, hq, List.take_left, List.drop_left]

variable (n : Nat) (ht : s.task ≠ .idle) (hs : s.script = d :: ds) (hd : d.late = [])
include ht hs hd

/-- R75 with the ACK. -/
theorem drive_readAck (hp : s.phase = .rxAck) (hq : s.rxq ++ d.arrive = 0x06 :: m) :
    drive (n + 1) s = drive n { s with
      ackByte := 0x06, phase := .rxStart, rxq := m, trace := s.trace ++ [.rx 1 [0x06]], script := ds } := by
  have hread : s.readBytes 1 = [0x06] := readBytes_answered (l := [0x06]) hs hq rfl
  rw [drive_more n s ht, tick, advance_rxAck s ht hp, if_pos hread,
    rxRead_answered (l := [0x06]) (k := 1) hs hq rfl]
  exact congrArg _ (endStep_quiet _ d ds hs hd)

/-- R76 with the start byte. -/
theorem drive_readStart (hp : s.phase = .rxStart) (hq : s.rxq ++ d.arrive = 0x41 :: m) :
    drive (n + 1) s = drive n { s with
      startByte := 0x41, phase := .rxLen, rxq := m, trace := s.trace ++ [.rx 1 [0x41]], script := ds } := by
  have hread : s.readBytes 1 = [0x41] := readBytes_answered (l := [0x41]) hs hq rfl
  rw [drive_more n s ht, tick, advance_rxStart s ht hp, startStep_start hread,
    rxRead_answered (l := [0x41]) (k := 1) hs hq rfl]
  exact congrArg _ (endStep_quiet _ d ds hs hd)

/-- R77 with a length byte. -/
theorem drive_readLen {b : Byte} (hp : s.phase = .rxLen) (hq : s.rxq ++ d.arrive = b :: m) :
    drive (n + 1) s = drive n { s with
      declaredSize := b, phase := .rxBody, rxq := m, trace := s.trace ++ [.rx 1 [b]], script := ds } := by
  have hread : s.readBytes 1 = [b] := readBytes_answered (l := [b]) hs hq rfl
  rw [drive_more n s ht, tick, advance_rxLen s ht hp, lenStep, hread,
    rxRead_answered (l := [b]) (k := 1) hs hq rfl]
  exact congrArg _ (endStep_quiet _ d ds hs hd)

/-- R78 with a whole body. -/
theorem drive_readBody (hp : s.phase = .rxBody) (hk : s.declaredSize.toNat + 1 = k) (hl : l.length = k)
    (hq : s.rxq ++ d.arrive = l ++ m) :
    drive (n + 1) s = drive n { s with
      rxbuf := l, phase := .check, rsp := none, rxq := m, trace := s.trace ++ [.rx k l], script := ds } := by
  have hread : s.readBytes k = l := readBytes_answered hs hq hl
  have hwhole : ¬ l.length < k := hl.not_lt
  simp only [drive_more n s ht, tick, advance_rxBody s ht hp, bodyStep, hk, hread, if_neg hwhole,
    rxRead_answered hs hq hl]
  exact congrArg _ (endStep_quiet _ d ds hs hd)

end

/-- The response to a frame has been read whole (R75 to R78); ck is its checksum byte. -/
def State.responseRead (q : List Byte) (ck : Byte) (s : State) : State :=
  { s with
    phase := .check
    rsp := none
    ackByte := 0x06
    startByte := 0x41
    declaredSize := byteOfNat q.length
    rxbuf := q ++ [ck]
    rxq := []
    trace := s.trace ++ [.rx 1 [0x06], .rx 1 [0x41], .rx 1 [byteOfNat q.length], .rx (q.length + 1) (q ++ [ck])] }

/-- A response that arrives whole when the ACK is awaited is read in four steps (R75 to R78). -/
theorem drive_response (n : Nat) {s : State} {q : List Byte} {ck : Byte} {ack start size body : Draw}
    {ds : List Draw} (hp : s.phase = .rxAck) (ht : s.task ≠ .idle) (hrxq : s.rxq = []) (hl : q.length ≤ 255)
    (hs : s.script = ack :: start :: size :: body :: ds)
    (hack : ack.brings (0x06 :: 0x41 :: byteOfNat q.length :: (q ++ [ck])))
    (hstart : start.brings []) (hsize : size.brings []) (hbody : body.brings []) :
    drive (n + 4) s = drive n { s.responseRead q ck with script := ds } := by
  have hlen : (byteOfNat q.length).toNat = q.length := byteOfNat_toNat _ hl
  simp only [Draw.brings] at hack hstart hsize hbody
  refine (drive_readAck (n + 3) ht hs hack.2 hp (by rw [hrxq, hack.1]; rfl)).trans ?_
  refine (drive_readStart (n + 2) (by exact ht) (by rfl) hstart.2 (by rfl)
    (by rw [hstart.1, List.append_nil])).trans ?_
  refine (drive_readLen (n + 1) (by exact ht) (by rfl) hsize.2 (by rfl) (by rw [hsize.1, List.append_nil])).trans ?_
  refine (drive_readBody (l := q ++ [ck]) (m := []) n (by exact ht) (by rfl) hbody.2 (by rfl)
    (congrArg (· + 1) hlen) (by simp) (by rw [hbody.1])).trans ?_
  simp [State.responseRead]

/-- The frame of p has been accepted whole, behind the flush, and its response is awaited (R74, R82). -/
def State.frameSent (p : List Byte) (s : State) : State :=
  { s with
    phase := .rxAck
    acc := checksum (byteOfNat p.length) p
    txbuf := frameOf p
    rxq := []
    trace := s.trace ++ [.flush, .tx (frameOf p) (p.length + 3)] }

/-- A transaction whose frame is accepted whole, while nothing arrives behind the flush (R82). -/
theorem drive_frameSent (n : Nat) {s : State} {p : List Byte} {flush tx : Draw} {ds : List Draw}
    (hp : s.phase = .txFlush) (ht : s.task ≠ .idle) (hpay : s.txPayload = p) (hl : p.length ≤ 100)
    (hs : s.script = flush :: tx :: ds) (hflush : flush.late = []) (ha : p.length + 3 ≤ tx.accept)
    (htx : tx.brings []) : drive (n + 2) s = drive n { s.frameSent p with script := ds } := by
  have hframe : endStep (s.frameBuilt p) = { s.frameBuilt p with script := tx :: ds } :=
    endStep_quiet (s.frameBuilt p) flush (tx :: ds) hs hflush
  have hdraw : (endStep (s.frameBuilt p)).nextDraw = tx := by rw [hframe]; rfl
  rw [drive_framed n hp ht hpay hl, sendFrame_ok _ p hl (by rwa [hdraw]), hdraw, hframe,
    endStep_quiet _ tx ds rfl htx.2]
  simp [State.frameSent, State.frameBuilt, htx.1]

/-- A transaction answered in full returns the payload of its response after seven steps, whatever operation it
runs under; what the last draw brings comes with the return (R75 to R79, R82, R34). -/
theorem drive_answered (n : Nat) {s : State} {p q : List Byte} {ds rest : List Draw} (hp : s.phase = .txFlush)
    (ht : s.task ≠ .idle) (hpay : s.txPayload = p) (hl : p.length ≤ 100) (hq : q.length ≤ 255)
    (hs : s.script = ds ++ rest) (ha : answers (p.length + 3) (0x06 :: frameOf q) ds) :
    ∃ check, ds.getLast? = some check ∧ drive (n + 7) s = drive n (endStep (parseReturn q
      { (s.frameSent p).responseRead q (checksum (byteOfNat q.length) q) with
        acc := checksum (byteOfNat q.length) q
        script := check :: rest })) := by
  obtain ⟨flush, tx, ack, start, size, body, check, rfl, hflush, haccept, htx, hack, hstart, hsize, hbody⟩ := ha
  refine ⟨check, rfl, ?_⟩
  rw [drive_frameSent (n + 5) hp ht hpay hl hs hflush haccept htx]
  refine (drive_response (n + 1) (by rfl) (by exact ht) (by rfl) hq (by rfl) hack hstart hsize hbody).trans ?_
  rw [drive_more _ _ (by exact ht), tick, advance_check _ (by exact ht) rfl rfl,
    checkFrame_good _ q _ (byteOfNat_toNat _ hq) rfl rfl]
  rfl

/-- Settles O27: `EXECUTE` returns what its transaction returns. -/
theorem executeReturnsPayload : Obligations.ExecuteReturnsPayload := by
  intro s p q ds rest hp hq hs ha
  obtain ⟨n, hn⟩ := exec_execute p s
  obtain ⟨check, hcheck, hrun⟩ := drive_answered (s := s.executing p) (n + 1) rfl (executing_lineOp p s).runs
    (executing_txPayload p s) hp hq hs ha
  rw [hrun, parseReturn_plain _ _ (.inr ⟨p, rfl⟩), endStep_of _ check rest rfl, drive_done _ _ rfl] at hn
  refine ⟨_, hn, rfl, fun last hlast => ?_, rfl, rfl, List.append_assoc s.trace _ _⟩
  cases hcheck.symm.trans hlast
  rfl

end Sys2Proof.Machine
end

section
namespace Sys2Proof.Machine

/-! ### Two runs of EXECUTE in the same environment (R83) -/

/-- What the course of a transaction rests on besides what it has read itself: where it is, what stands in `rxq`,
and the draws to come. -/
def State.facing (s : State) := (s.phase, s.task, s.rxq, s.script, s.draws)

/-- Two runs, from s₁ to u₁ and from s₂ to u₂, that face the same after the same interactions. It looks at no other
register: it unfolds to the same for states that differ from u₁ and u₂ in the others only, which is how `by exact`
below passes over what a step writes there. -/
def Alike (s₁ s₂ u₁ u₂ : State) : Prop :=
  u₁.facing = u₂.facing ∧ ∃ new, u₁.trace = s₁.trace ++ new ∧ u₂.trace = s₂.trace ++ new

/-- Two such runs that have ended with the same result. -/
def EndAlike (s₁ s₂ t₁ t₂ : State) : Prop := Alike s₁ s₂ t₁ t₂ ∧ t₁.opResult = t₂.opResult

section
variable {s₁ s₂ u₁ u₂ : State}

theorem Alike.phase (h : Alike s₁ s₂ u₁ u₂) : u₂.phase = u₁.phase := (congrArg (·.1) h.1).symm
theorem Alike.task (h : Alike s₁ s₂ u₁ u₂) : u₂.task = u₁.task := (congrArg (·.2.1) h.1).symm
theorem Alike.rxq (h : Alike s₁ s₂ u₁ u₂) : u₂.rxq = u₁.rxq := (congrArg (·.2.2.1) h.1).symm
theorem Alike.script (h : Alike s₁ s₂ u₁ u₂) : u₂.script = u₁.script := (congrArg (·.2.2.2.1) h.1).symm
theorem Alike.draws (h : Alike s₁ s₂ u₁ u₂) : u₂.draws = u₁.draws := (congrArg (·.2.2.2.2) h.1).symm

theorem Alike.nextDraw (h : Alike s₁ s₂ u₁ u₂) : u₂.nextDraw = u₁.nextDraw := by
  simp only [State.nextDraw, h.script, h.draws]

theorem Alike.readBytes (h : Alike s₁ s₂ u₁ u₂) (k : Nat) : u₂.readBytes k = u₁.readBytes k := by
  simp only [State.readBytes, h.rxq, h.nextDraw]

/-- One more interaction, the same in both, that leaves them facing the same. -/
theorem Alike.snoc {v₁ v₂ : State} (h : Alike s₁ s₂ u₁ u₂) (e : Event) (hf : v₁.facing = v₂.facing)
    (h₁ : v₁.trace = u₁.trace ++ [e]) (h₂ : v₂.trace = u₂.trace ++ [e]) : Alike s₁ s₂ v₁ v₂ := by
  obtain ⟨-, new, hnew₁, hnew₂⟩ := h
  exact ⟨hf, new ++ [e], by rw [h₁, hnew₁, List.append_assoc], by rw [h₂, hnew₂, List.append_assoc]⟩

/-- Such as a read of k bytes (R32). -/
theorem Alike.rxRead (h : Alike s₁ s₂ u₁ u₂) (k : Nat) : Alike s₁ s₂ (rxRead k u₁) (rxRead k u₂) := by
  refine h.snoc (.rx k (u₁.readBytes k)) ?_ rfl (by rw [← h.readBytes]; rfl)
  simp only [State.facing, rxRead_phase, rxRead_task, rxRead_rxq, rxRead_script, rxRead_draws, h.phase, h.task,
    h.rxq, h.nextDraw, h.script, h.draws]

/-- Or the sending of l, of which c bytes are accepted while r arrives (R30). -/
theorem Alike.sent (h : Alike s₁ s₂ u₁ u₂) (l r : List Byte) (c : Nat) : Alike s₁ s₂
    { u₁ with rxq := u₁.rxq ++ r, trace := u₁.trace ++ [.tx l c] }
    { u₂ with rxq := u₂.rxq ++ r, trace := u₂.trace ++ [.tx l c] } := by
  refine h.snoc (.tx l c) ?_ rfl rfl
  simp only [State.facing, h.phase, h.task, h.rxq, h.script, h.draws]

/-- The peer appends the same to both (R34). -/
theorem Alike.endStep (h : Alike s₁ s₂ u₁ u₂) : Alike s₁ s₂ (endStep u₁) (endStep u₂) := by
  refine ⟨?_, by simpa using h.2⟩
  cases hs : u₁.script <;>
    simp [State.facing, State.afterDraw, hs, h.phase, h.task, h.rxq, h.nextDraw, h.script, h.draws]

/-- Both go on to the same phase. -/
theorem Alike.goesTo (h : Alike s₁ s₂ u₁ u₂) (p : Phase) :
    Alike s₁ s₂ { u₁ with phase := p } { u₂ with phase := p } :=
  ⟨congrArg (fun f => (p, f.2)) h.1, h.2⟩

/-- With the same result they have ended alike. -/
theorem Alike.ends (h : Alike s₁ s₂ u₁ u₂) (r : Result) :
    EndAlike s₁ s₂ (Machine.endStep (finishOp r u₁)) (Machine.endStep (finishOp r u₂)) :=
  ⟨Alike.endStep ⟨congrArg (fun f => (f.1, Task.idle, f.2.2)) h.1, h.2⟩, by simp⟩

/-- What two runs that have ended alike have in common, when the tasks above them stand again. -/
theorem EndAlike.under {t₁ t₂ : State} (h : EndAlike s₁ s₂ t₁ t₂) (k₁ k₂ : Task) : ∃ new,
    (t₁.under k₁).opResult = (t₂.under k₂).opResult ∧ (t₁.under k₁).trace = s₁.trace ++ new ∧
    (t₂.under k₂).trace = s₂.trace ++ new ∧ (t₁.under k₁).rxq = (t₂.under k₂).rxq ∧
    (t₁.under k₁).phase = (t₂.under k₂).phase := by
  obtain ⟨halike, hresult⟩ := h
  obtain ⟨new, hnew₁, hnew₂⟩ := halike.2
  exact ⟨new, hresult, hnew₁, hnew₂, halike.rxq.symm, halike.phase.symm⟩

variable (h : Alike s₁ s₂ u₁ u₂) (ht : ParseOp u₁.task)
include h ht

/-- So with the same error. -/
theorem Alike.fails (e : Fail) :
    EndAlike s₁ s₂ (Machine.endStep (raise e u₁)) (Machine.endStep (raise e u₂)) := by
  rw [raise_plain e u₁ ht, raise_plain e u₂ (h.task ▸ ht)]
  exact Alike.ends (by exact h) _

/-- R79: of the same body both make the same. -/
theorem Alike.check (hsize : u₂.declaredSize = u₁.declaredSize) (hbody : u₂.rxbuf = u₁.rxbuf)
    (hlen : u₁.rxbuf.length = u₁.declaredSize.toNat + 1) :
    EndAlike s₁ s₂ (Machine.endStep (checkFrame u₁)) (Machine.endStep (checkFrame u₂)) := by
  have hsplit := List.dropLast_append_getLast (List.ne_nil_of_length_eq_add_one hlen)
  have hpay : u₁.rxbuf.dropLast.length = u₁.declaredSize.toNat := by rw [List.length_dropLast, hlen]; rfl
  rw [checkFrame_whole hpay hsplit.symm, checkFrame_whole (by rwa [hsize]) (hbody.trans hsplit.symm), hsize]
  split
  · rw [parseReturn_plain _ _ (by exact ht), parseReturn_plain _ _ (by exact h.task ▸ ht)]
    exact Alike.ends (by exact h.goesTo .check) _
  · exact Alike.fails (by exact h.goesTo .check) (by exact ht) _

variable (n m : Nat)

/-- R78 and R79. -/
theorem Alike.body (hp : u₁.phase = .rxBody) (hsize : u₂.declaredSize = u₁.declaredSize) :
    EndAlike s₁ s₂ (drive (n + 2) u₁) (drive (m + 2) u₂) := by
  have hp₂ := h.phase.trans hp
  have ht₂ := h.task ▸ ht
  have hread := h.readBytes (u₁.declaredSize.toNat + 1)
  have hrx := h.rxRead (u₁.declaredSize.toNat + 1)
  by_cases hshort : (u₁.readBytes (u₁.declaredSize.toNat + 1)).length < u₁.declaredSize.toNat + 1
  · rw [drive_shortBody ht hp hshort, drive_shortBody ht₂ hp₂ (by rwa [hsize, hread]), hsize, hread]
    exact Alike.fails (by exact hrx) (by exact ht) _
  · have hlen := Nat.le_antisymm (readBytes_length_le _ u₁) (Nat.le_of_not_lt hshort)
    have hbody : Alike s₁ s₂ (bodyTaken u₁) (bodyTaken u₂) := by
      unfold bodyTaken
      rw [hsize]
      exact hrx.goesTo .check
    rw [drive_wholeBody ht hp hshort, drive_wholeBody ht₂ hp₂ (by rwa [hsize, hread])]
    exact hbody.endStep.check (by simpa [bodyTaken]) (by simpa [bodyTaken]) (by simp [bodyTaken, hsize, hread])
      (by simpa [bodyTaken])

/-- R77 on. -/
theorem Alike.len (hp : u₁.phase = .rxLen) : EndAlike s₁ s₂ (drive (n + 3) u₁) (drive (m + 3) u₂) := by
  have hp₂ := h.phase.trans hp
  have ht₂ := h.task ▸ ht
  have hread := h.readBytes 1
  obtain hnone | ⟨b, hb⟩ := readBytes_one u₁
  · rw [drive_noLen ht hp hnone, drive_noLen ht₂ hp₂ (hread.trans hnone)]
    exact (h.rxRead 1).fails ht _
  · rw [drive_len n u₁ hp ht, drive_len m u₂ hp₂ ht₂, if_neg (by simp [hb]), if_neg (by simp [hread, hb])]
    simp only [lenStep, hread, hb]
    exact Alike.body (Alike.endStep (by exact (h.rxRead 1).goesTo .rxBody)) (by simpa) n m (by simp) (by simp)

/-- R76 on. -/
theorem Alike.start (hp : u₁.phase = .rxStart) : EndAlike s₁ s₂ (drive (n + 4) u₁) (drive (m + 4) u₂) := by
  have hp₂ := h.phase.trans hp
  have ht₂ := h.task ▸ ht
  have hread := h.readBytes 1
  by_cases hstart : u₁.readBytes 1 = [0x41]
  · rw [drive_start n u₁ hp ht, if_pos hstart, drive_start m u₂ hp₂ ht₂, if_pos (hread.trans hstart),
      startStep_start hstart, startStep_start (hread.trans hstart)]
    exact Alike.len (Alike.endStep (by exact (h.rxRead 1).goesTo .rxLen)) (by simpa) n m (by simp)
  · rw [drive_noStart ht hp hstart, drive_noStart ht₂ hp₂ (by rwa [hread]), hread]
    exact Alike.fails (by exact h.rxRead 1) (by exact ht) _

/-- R75 on: a whole parse. -/
theorem Alike.ack (hp : u₁.phase = .rxAck) : EndAlike s₁ s₂ (drive (n + 5) u₁) (drive (m + 5) u₂) := by
  have hp₂ := h.phase.trans hp
  have ht₂ := h.task ▸ ht
  have hread := h.readBytes 1
  by_cases hack : u₁.readBytes 1 = [0x06]
  · rw [drive_ack n u₁ hp ht, if_pos hack, drive_ack m u₂ hp₂ ht₂, if_pos (hread.trans hack)]
    exact Alike.start (Alike.endStep (by exact (h.rxRead 1).goesTo .rxStart)) (by simpa) n m (by simp [ackReceived])
  · rw [drive_noAck ht hp hack, drive_noAck ht₂ hp₂ (by rwa [hread]), hread]
    exact Alike.fails (by exact h.rxRead 1) (by exact ht) _

/-- The frame of p is sent to both, in part or whole, and the rest of a transaction follows (R82). -/
theorem Alike.frame {p : List Byte} (hl : p.length ≤ 100) : EndAlike s₁ s₂
    (drive (n + 5) (Machine.endStep (sendFrame p u₁))) (drive (m + 5) (Machine.endStep (sendFrame p u₂))) := by
  have ht₂ := h.task ▸ ht
  by_cases ha : u₁.nextDraw.accept < p.length + 3
  · rw [drive_partial (n + 5) (ht.imp_right .inl) hl ha,
      drive_partial (m + 5) (ht₂.imp_right .inl) hl (by rwa [h.nextDraw]), h.nextDraw]
    exact Alike.ends (by exact (h.sent _ _ _).goesTo .txFrame) _
  · have hwhole := Nat.le_of_not_lt ha
    rw [sendFrame_ok u₁ p hl hwhole, sendFrame_ok u₂ p hl (by rwa [h.nextDraw]), h.nextDraw]
    exact Alike.ack (Alike.endStep (by exact (h.sent _ _ _).goesTo .rxAck)) (by simpa) n m (by simp)

end

/-- Settles O29: behind the flush two runs of `EXECUTE(p)` in the same environment stay alike. -/
theorem executeKeepsNoState : Obligations.ExecuteKeepsNoState := by
  intro s₁ s₂ p hscript hdraws
  obtain ⟨n, hn⟩ := exec_execute p s₁
  obtain ⟨m, hm⟩ := exec_execute p s₂
  suffices hend : EndAlike s₁ s₂ (drive (n + 8) (s₁.executing p)) (drive (m + 8) (s₂.executing p)) by
    obtain ⟨new, hsame⟩ := hend.under s₁.task s₂.task
    exact ⟨_, _, new, hn, hm, hsame⟩
  have hop₁ := executing_lineOp p s₁
  have hop₂ := executing_lineOp p s₂
  have hflush : Alike s₁ s₂ (rxFlush (s₁.executing p)) (rxFlush (s₂.executing p)) :=
    ⟨by simp [State.facing, State.executing, startTransaction, State.under, hscript, hdraws], [.flush], rfl, rfl⟩
  by_cases hl : p.length ≤ 100
  · have hbuilt : Alike s₁ s₂ ((s₁.executing p).frameBuilt p) ((s₂.executing p).frameBuilt p) :=
      hflush.goesTo .txFrame
    rw [drive_framed (n + 6) rfl hop₁.runs (executing_txPayload p s₁) hl,
      drive_framed (m + 6) rfl hop₂.runs (executing_txPayload p s₂) hl]
    exact hbuilt.endStep.frame (.inr ⟨p, by simp⟩) (n + 1) (m + 1) hl
  · rw [drive_refused (n + 7) rfl hop₁ (executing_txPayload p s₁) (Nat.lt_of_not_le hl),
      drive_refused (m + 7) rfl hop₂ (executing_txPayload p s₂) (Nat.lt_of_not_le hl)]
    exact Alike.ends (by exact hflush) _

end Sys2Proof.Machine
end

section
namespace Sys2Proof.Machine

/-! ### The echo checks of a reply (R85, R87) -/

/-- `READ_CHECK` passes a reply exactly when it is the echo of the request with its data behind it (R85, R59). -/
theorem readCheck_eq_none_iff {a : Addr} {m : Byte} {rsp : List Byte} : readCheck a m rsp = none ↔
    ∃ data, data.length = m.toNat ∧ rsp = readRspPayload a m data := by
  constructor
  · intro h
    simp only [readCheck, ite_eq_iff, reduceCtorEq, and_false, false_or, and_true, not_not, not_or,
      Nat.add_comm 5] at h
    obtain ⟨hlen, hmsg, hacc, ⟨hah, hal⟩, hsz⟩ := h
    match rsp, hlen with
    | msg :: acc :: ah :: al :: sz :: data, hlen =>
      obtain ⟨rfl, rfl, rfl, rfl, rfl⟩ : msg = 0x01 ∧ acc = 0x01 ∧ ah = hi a ∧ al = lo a ∧ sz = m :=
        ⟨hmsg, hacc, hah, hal, hsz⟩
      exact ⟨data, by simpa using hlen, rfl⟩
  · rintro ⟨data, hlen, rfl⟩
    exact (readCheck_iff a a m m data).trans (if_pos ⟨rfl, rfl, hlen⟩)

/-- Every other reply is the one error (R85, R113). -/
theorem readCheck_eq_some {a : Addr} {m : Byte} {rsp : List Byte} (h : readCheck a m rsp ≠ none) :
    readCheck a m rsp = some failReadResponse := by
  unfold readCheck at h ⊢
  split_ifs at h ⊢ <;> trivial

/-- A reply to a write that is not five bytes long is the wrong length, whatever it holds (R87). -/
theorem writeCheck_wrongLength (a : Addr) (m : Byte) {rsp : List Byte} (h : rsp.length ≠ 5) :
    writeCheck a m rsp = some { kind := .wrongLength, got := some (rsp.length : Int), expected := some 5 } :=
  if_pos h

/-- One of five bytes is judged by its address as a number, then message type, access type and size (R87, R37). -/
theorem writeCheck_five (a : Addr) (m msg acc ah al n : Byte) : writeCheck a m [msg, acc, ah, al, n] =
    if ah.toNat * 256 + al.toNat ≠ a.toNat then
      some { kind := .wrongAddress, got := some ((ah.toNat : Int) * 256 + (al.toNat : Int)),
             expected := some (a.toNat : Int) }
    else if msg ≠ 0x01 then
      some { kind := .wrongMessageType, got := some (byteVal msg), expected := some 0x01 }
    else if acc ≠ 0x02 then
      some { kind := .wrongAccessType, got := some (byteVal acc), expected := some 0x02 }
    else if n ≠ m then
      some { kind := .wrongSize, got := some (byteVal n), expected := some (byteVal m) }
    else none := by
  have haddr : (ah ≠ hi a ∨ al ≠ lo a) ↔ ah.toNat * 256 + al.toNat ≠ a.toNat := by
    rw [ne_eq (_ + _), addr_bytes, not_and_or]
  simp only [writeCheck, ← haddr]
  rfl

/-- The same of a reply that holds an address (R61, R62). -/
theorem writeCheck_reply (a addr : Addr) (m acc n : Byte) : writeCheck a m [0x01, acc, hi addr, lo addr, n] =
    if addr ≠ a then
      some { kind := .wrongAddress, got := some (addr.toNat : Int), expected := some (a.toNat : Int) }
    else if acc ≠ 0x02 then
      some { kind := .wrongAccessType, got := some (byteVal acc), expected := some 0x02 }
    else if n ≠ m then
      some { kind := .wrongSize, got := some (byteVal n), expected := some (byteVal m) }
    else none := by
  have hval : (hi addr).toNat * 256 + (lo addr).toNat = addr.toNat := (addr_bytes addr _ _).2 ⟨rfl, rfl⟩
  have hcast : ((hi addr).toNat : Int) * 256 + ((lo addr).toNat : Int) = (addr.toNat : Int) := by
    rw [← hval, Nat.cast_add, Nat.cast_mul]
    rfl
  simp only [writeCheck_five, hval, hcast, ne_eq, BitVec.toNat_inj, not_true_eq_false, if_false]

theorem readRspPayload_length (addr : Addr) (n : Byte) (data : List Byte) :
    (readRspPayload addr n data).length = 5 + data.length := List.length_append

/-- A read reply never passes as the reply to a write (R87). -/
theorem writeCheck_readRsp (a addr : Addr) (m n : Byte) (data : List Byte) :
    writeCheck a m (readRspPayload addr n data) = some (
      if data ≠ [] then
        { kind := .wrongLength, got := some (5 + (data.length : Int)), expected := some 5 }
      else if addr ≠ a then
        { kind := .wrongAddress, got := some (addr.toNat : Int), expected := some (a.toNat : Int) }
      else { kind := .wrongAccessType, got := some 0x01, expected := some 0x02 }) := by
  have hlen := readRspPayload_length addr n data
  by_cases hdata : data = []
  · subst hdata
    rw [if_neg (not_not.2 rfl), apply_ite some]
    exact writeCheck_reply a addr m 0x01 n
  · have hlong : (readRspPayload addr n data).length ≠ 5 := by
      have := List.length_pos_iff.2 hdata
      omega
    rw [if_pos hdata, writeCheck_wrongLength a m hlong, hlen, Nat.cast_add]
    rfl

/-- Nor does a write reply as that to a read (R85). -/
theorem readCheck_writeRsp (a addr : Addr) (m n : Byte) :
    readCheck a m (writeRspPayload addr n) = some failReadResponse := by
  refine readCheck_eq_some fun hnone => ?_
  obtain ⟨data, -, hrsp⟩ := readCheck_eq_none_iff.1 hnone
  have hacc : (0x02 : Byte) = 0x01 := (List.cons.inj (List.cons.inj hrsp).2).1
  exact absurd hacc (by decide)

/-! ### READ_CHECK and WRITE_CHECK on their own (R85, R87) -/

section
variable {s : State} {rsp : List Byte} {e : Fail}

theorem exec_readCheck_passes (h : readCheck s.reqAddr s.reqSize rsp = none) :
    exec (.readCheck rsp) s = .next (setResult (.ok .unit) s) := by
  simp only [exec, execReadCheck, h]

theorem exec_readCheck_fails (h : readCheck s.reqAddr s.reqSize rsp = some e) :
    exec (.readCheck rsp) s = .next (failOp e s) := by
  simp only [exec, execReadCheck, h]

theorem exec_writeCheck_passes (h : writeCheck s.reqAddr s.reqSize rsp = none) :
    exec (.writeCheck rsp) s = .next (setResult (.ok .unit) s) := by
  simp only [exec, execWriteCheck, h]

theorem exec_writeCheck_fails (h : writeCheck s.reqAddr s.reqSize rsp = some e) :
    exec (.writeCheck rsp) s = .next (failOp e s) := by
  simp only [exec, execWriteCheck, h]

end

/-- Settles O33: the check passes the echo, and has one error for everything else. -/
theorem readCheckExact : Obligations.ReadCheckExact := by
  refine fun s rsp => ⟨fun data hlen hrsp => ?_, fun hother => ?_⟩
  · exact exec_readCheck_passes (readCheck_eq_none_iff.2 ⟨data, hlen, hrsp⟩)
  · exact exec_readCheck_fails (readCheck_eq_some (mt readCheck_eq_none_iff.1 hother))

/-- Settles O35: the branches of the check, in their order. -/
theorem writeCheckPriority : Obligations.WriteCheckPriority := by
  rintro s rsp bad rfl
  refine ⟨fun hlen => exec_writeCheck_fails (writeCheck_wrongLength _ _ hlen), ?_⟩
  rintro m a ah al n rfl
  have hcheck := writeCheck_five s.reqAddr s.reqSize m a ah al n
  refine ⟨fun haddr => ?_, fun haddr hm => ?_, fun haddr hm ha => ?_, fun haddr hm ha hn => ?_,
    fun haddr hm ha hn => ?_⟩
  · exact exec_writeCheck_fails (hcheck.trans (if_pos haddr))
  all_goals rw [if_neg (not_not.2 haddr)] at hcheck
  · exact exec_writeCheck_fails (hcheck.trans (if_pos hm))
  all_goals rw [if_neg (not_not.2 hm)] at hcheck
  · exact exec_writeCheck_fails (hcheck.trans (if_pos ha))
  all_goals rw [if_neg (not_not.2 ha)] at hcheck
  · exact exec_writeCheck_fails (hcheck.trans (if_pos hn))
  · exact exec_writeCheck_passes (hcheck.trans (if_neg (not_not.2 hn)))

/-! ### The echo check under a register access on its own (R84 to R87) -/

section
variable {s : State} {rsp : List Byte} {e : Fail} (ht : LineOp s.task)
include ht

theorem echoCheck_read_passes (hk : s.reqKind = .read) (h : readCheck s.reqAddr s.reqSize rsp = none) :
    echoCheck rsp s = finishOp (.ok (.bytes (s.readData rsp))) s := by
  simp only [echoCheck, hk, h, readReturn_local rsp ht]

theorem echoCheck_read_fails (hk : s.reqKind = .read) (h : readCheck s.reqAddr s.reqSize rsp = some e) :
    echoCheck rsp s = finishOp (.err { fail := e }) (writeErr e s) := by
  simp only [echoCheck, hk, h, raise_local e s ht]

theorem echoCheck_write_passes (hk : s.reqKind = .write) (h : writeCheck s.reqAddr s.reqSize rsp = none) :
    echoCheck rsp s = finishOp (.ok .unit) s := by
  simp only [echoCheck, hk, h, writeReturn_local ht]

theorem echoCheck_write_fails (hk : s.reqKind = .write) (h : writeCheck s.reqAddr s.reqSize rsp = some e) :
    echoCheck rsp s = finishOp (.err { fail := e }) (writeErr e s) := by
  simp only [echoCheck, hk, h, raise_local e s ht]

end

/-- A read on its own returns the data of the reply that echoes its request (R84). -/
theorem echoCheck_readRsp {s : State} {addr : Addr} {n : Byte} {data : List Byte} (ht : LineOp s.task)
    (hk : s.reqKind = .read) (haddr : s.reqAddr = addr) (hn : s.reqSize = n) (hdata : data.length = n.toNat) :
    echoCheck (readRspPayload addr n data) s = finishOp (.ok (.bytes data)) s := by
  subst haddr hn
  have hread : s.readData (readRspPayload s.reqAddr s.reqSize data) = data := List.take_of_length_le hdata.le
  rw [echoCheck_read_passes ht hk (readCheck_eq_none_iff.2 ⟨data, hdata, rfl⟩), hread]

/-- A write on its own ends with the reply that echoes its request (R86). -/
theorem echoCheck_writeRsp {s : State} {addr : Addr} {n : Byte} (ht : LineOp s.task) (hk : s.reqKind = .write)
    (haddr : s.reqAddr = addr) (hn : s.reqSize = n) :
    echoCheck (writeRspPayload addr n) s = finishOp (.ok .unit) s := by
  subst haddr hn
  exact echoCheck_write_passes ht hk (writeCheck_echo _ _)

/-- The state in which a reply stands before its echo check (R85, R87). -/
def State.replying (p : List Byte) (s : State) : State := { s with phase := .check, rsp := some p }

/-- Settles O36: the reply's check by the kind of the pending request, then its branches. -/
theorem replyMessagesChecked : Obligations.ReplyMessagesChecked := by
  rintro s addr n data read write good bad rfl rfl rfl rfl
  have hread : exec (.readRsp addr n data) s = .next (echoCheck (readRspPayload addr n data)
      (s.replying (readRspPayload addr n data))) := rfl
  have hwrite : exec (.writeRsp addr n) s = .next (echoCheck (writeRspPayload addr n)
      (s.replying (writeRspPayload addr n))) := rfl
  rw [hread, hwrite]
  refine ⟨fun ht hk => ?_, fun ht hk => ?_⟩
  · have hop (p : List Byte) : LineOp (s.replying p).task := .inr (.inr (.inl ht))
    refine ⟨?_, congrArg _ (echoCheck_read_fails (hop _) hk (readCheck_writeRsp _ _ _ _))⟩
    split
    case isTrue hecho =>
      obtain ⟨haddr, hn, hdata⟩ := hecho
      exact congrArg _ (echoCheck_readRsp (hop _) hk haddr.symm hn.symm hdata)
    case isFalse hecho =>
      exact congrArg _ (echoCheck_read_fails (hop _) hk ((readCheck_iff _ addr _ n data).trans (if_neg hecho)))
  · have hop (p : List Byte) : LineOp (s.replying p).task := .inr (.inr (.inr ht))
    refine ⟨?_, congrArg _ (echoCheck_write_fails (hop _) hk (writeCheck_readRsp _ _ _ _ _))⟩
    have hcheck := writeCheck_reply s.reqAddr addr s.reqSize 0x02 n
    split
    case isTrue haddr => exact congrArg _ (echoCheck_write_fails (hop _) hk (hcheck.trans (if_pos haddr)))
    case isFalse haddr =>
      rw [if_neg haddr, if_neg (not_not.2 rfl)] at hcheck
      split
      case isTrue hn => exact congrArg _ (echoCheck_write_fails (hop _) hk (hcheck.trans (if_pos hn)))
      case isFalse hn =>
        exact congrArg _ (echoCheck_writeRsp (hop _) hk (not_not.1 haddr).symm (not_not.1 hn).symm)

end Sys2Proof.Machine
end

section
namespace Sys2Proof.Machine

/-! ### A register access answered in full (R84, R86) -/

/-- The transaction with payload p has ended with q inside a register access, whose echo check is next: `rxq` holds
what came behind the reply, and ds are the draws to come (R82, R34). -/
def State.answered (p q late : List Byte) (ds : List Draw) (s : State) : State :=
  { (s.frameSent p).responseRead q (checksum (byteOfNat q.length) q) with
    acc := checksum (byteOfNat q.length) q
    rsp := some q
    rxq := late
    script := ds }

/-- Of the interactions of a transaction only the frame puts bytes on the line (R30). -/
theorem answered_txLog (p q late : List Byte) (ds : List Draw) (s : State) :
    (s.answered p q late ds).txLog = s.txLog ++ frameOf p := by
  have hframe : (frameOf p).take (p.length + 3) = frameOf p := List.take_of_length_le (frameOf_length p).le
  simp [State.answered, State.responseRead, State.frameSent, State.txLog, Event.sent, hframe]

section
variable {s : State} {p q : List Byte} {ds rest : List Draw} {echo : Draw}

/-- A register access whose transaction is answered in full takes seven steps to its echo check, and that check
is the eighth (R82, R84, R86). -/
theorem drive_access_answered (n : Nat) (hp : s.phase = .txFlush)
    (ht : s.task = .regRead ∨ s.task = .regWrite ∨ s.task = .sweeping ∨ s.task = .writing)
    (hpay : s.txPayload = p) (hl : p.length ≤ 100) (hq : q.length ≤ 255) (hs : s.script = ds ++ echo :: rest)
    (ha : answers (p.length + 3) (0x06 :: frameOf q) ds) :
    ∃ late, drive (n + 8) s = drive n (endStep (echoCheck q (s.answered p q late (echo :: rest)))) := by
  have hrun : s.task ≠ .idle := by rcases ht with h | h | h | h <;> simp [h]
  obtain ⟨check, -, hdrive⟩ := drive_answered (n + 1) hp hrun hpay hl hq hs ha
  refine ⟨check.late, hdrive.trans ?_⟩
  rw [parseReturn_register _ (by exact ht), endStep_of _ check (echo :: rest) rfl, drive_more _ _ (by exact hrun),
    tick, advance_echo _ q (by exact hrun) rfl rfl]
  rfl

/-- One on its own, begun in u, whose reply passes ends with its result; exactly the request frame went on the
line (R30). -/
theorem runOp_answered {k : Task} {start : State → State} {u : State} {v : OkVal}
    (hu : start (s.under k) = startTransaction u) (ht : u.task = .regRead ∨ u.task = .regWrite)
    (hlog : u.txLog = s.txLog) (hpay : u.txPayload = p) (hl : p.length ≤ 100) (hq : q.length ≤ 255)
    (hs : u.script = ds ++ echo :: rest) (ha : answers (p.length + 3) (0x06 :: frameOf q) ds)
    (hecho : ∀ r, r.task = u.task → sameRequest u r → echoCheck q r = finishOp (.ok v) r) :
    (runOp k start s).opResult = some (.ok v) ∧ sameRequest u (runOp k start s) ∧
      (runOp k start s).script = rest ∧ (runOp k start s).txbuf = frameOf p ∧
      (runOp k start s).txLog = s.txLog ++ frameOf p := by
  obtain ⟨n, hn⟩ := runOp_drive k start s
  obtain ⟨late, hrun⟩ := drive_access_answered (s := startTransaction u) n rfl (ht.imp_right .inl) hpay hl hq hs ha
  have hpass := hecho ((startTransaction u).answered p q late (echo :: rest)) rfl ⟨rfl, rfl, rfl, rfl⟩
  rw [hn, hu, hrun, hpass, endStep_of _ echo rest rfl, drive_done _ _ rfl]
  exact ⟨rfl, ⟨rfl, rfl, rfl, rfl⟩, rfl, rfl, hlog ▸ answered_txLog p q late (echo :: rest) (startTransaction u)⟩

end

/-! ### REG_READ and REG_WRITE on their own (R84 to R87) -/

/-- Settles O31: the reply passes the echo check of the request registers, which hold the read. -/
theorem regReadReturnsData : Obligations.RegReadReturnsData := by
  intro s addr data ds rest echo h1 h4 hs ha
  have hsize : data.length = (byteOfNat data.length).toNat := (byteOfNat_toNat _ (by omega)).symm
  have hlegal : ¬ ((data.length : Int) < 1 ∨ (data.length : Int) > 4) := by omega
  have hstart : startRead addr data.length (s.under .regRead) = startTransaction { s.under .regRead with
      reqKind := .read, reqAddr := addr, reqSize := byteOfNat data.length } := by
    rw [startRead, if_neg hlegal, BitVec.ofInt_natCast]
    rfl
  have hreply := readRspPayload_length addr (byteOfNat data.length) data
  obtain ⟨hres, ⟨hkind, haddr, hsz, -⟩, hscript, hbuf, hlog⟩ := runOp_answered (v := .bytes data)
    (p := readReqPayload addr (byteOfNat data.length)) (q := readRspPayload addr (byteOfNat data.length) data)
    hstart (.inl rfl) rfl rfl (Nat.le_add_right 5 95) (by omega) hs ha
    fun r htask ⟨hkind, haddr, hsz, _⟩ => echoCheck_readRsp (.inr (.inr (.inl htask))) hkind haddr hsz hsize
  exact ⟨_, rfl, hres, hkind, haddr, hsz, hscript, hbuf, hlog⟩

/-- Settles O32: the size is refused where the operation begins. -/
theorem regReadSizeChecked : Obligations.RegReadSizeChecked := by
  intro s addr size h
  have hstart : startRead addr size (s.under .regRead) =
      finishOp (.err { fail := failSize size }) (writeErr (failSize size) (s.under .regRead)) :=
    (if_pos h).trans (raise_local _ _ (.inr (.inr (.inl rfl))))
  obtain ⟨n, hn⟩ := runOp_drive .regRead (startRead addr size) s
  rw [hstart, drive_done _ _ rfl] at hn
  exact congrArg Host.Outcome.next hn

/-- Settles O34: the reply passes the echo check of the request registers, which hold the write. -/
theorem regWriteCompletes : Obligations.RegWriteCompletes := by
  intro s addr data ds rest echo h95 hs ha
  have hsize : sizeReg data.length = byteOfNat data.length := if_pos (by omega)
  have hpay : (writeReqPayload addr (byteOfNat data.length) data).length = data.length + 5 := rfl
  obtain ⟨hres, ⟨hkind, haddr, hsz, hdata⟩, hscript, hbuf, hlog⟩ := runOp_answered (v := .unit)
    (p := writeReqPayload addr (byteOfNat data.length) data) (q := writeRspPayload addr (byteOfNat data.length))
    (k := .regWrite) (start := startWrite addr data) rfl (.inr rfl) rfl
    (congrArg (writeReqPayload addr · data) hsize) (by omega) (Nat.le_add_right 5 250) hs ha
    fun r htask ⟨hkind, haddr, hsz, _⟩ =>
      echoCheck_writeRsp (.inr (.inr (.inr htask))) hkind haddr (hsz.trans hsize)
  exact ⟨_, rfl, hres, hkind, haddr, hsz.trans hsize, hdata.trans (dataReg_of_le data h95), hscript, hbuf, hlog⟩

end Sys2Proof.Machine
end

section
namespace Sys2Proof.Machine

/-! ### The unsigned and the signed integer at a legal size (R90 to R93) -/

section
variable {s : State} {v : HostNum} {b : List Byte} {size : Nat} {t : Int} (h1 : 1 ≤ size) (h4 : size ≤ 4)
include h1 h4

theorem sizeOk_of_le : sizeOk size = true := decide_eq_true ⟨h1, h4⟩

theorem unsignedVal_eq (hb : b.length = size) : unsignedVal b size = leNat b :=
  if_pos ⟨sizeOk_of_le h1 h4, hb⟩

/-- The sign extension of `U(b)` by bit 7 of the last byte (R91). -/
theorem signedVal_eq (hb : b.length = size) : signedVal b size =
    if (b.getD (size - 1) 0).toNat < 128 then (leNat b : Int) else leNat b - 2 ^ (8 * size) := by
  have hne : b ≠ [] := List.ne_nil_of_length_pos (by omega)
  have hsign := leNat_testBit b hne
  rw [hb] at hsign
  rw [signedVal, if_pos ⟨sizeOk_of_le h1 h4, hb⟩, sext, hsign]
  by_cases hlast : (b.getD (size - 1) 0).toNat < 128
  · rw [if_pos hlast, if_neg (by rw [decide_eq_true_iff]; omega)]
  · rw [if_neg hlast, if_pos (by rw [decide_eq_true_iff]; omega)]

/-! ### The encoder on each side of its bounds (R95) -/

theorem encodeUnsigned_inRange (hv : truncNum v = some t) (h0 : 0 ≤ t) (hlt : t < 2 ^ (8 * size)) :
    encodeUnsigned v size = some (leBytes size t.toNat) :=
  (encodeUnsigned_eq size h1 h4 v t hv).trans (if_neg (by omega))

theorem encodeUnsigned_outOfRange (hv : truncNum v = some t) (h : t < 0 ∨ 2 ^ (8 * size) ≤ t) :
    encodeUnsigned v size = none :=
  (encodeUnsigned_eq size h1 h4 v t hv).trans (if_pos h)

/-! ### Encoder and decoder undo each other (R96) -/

theorem unsignedVal_leBytes (h0 : 0 ≤ t) (hlt : t < 2 ^ (8 * size)) :
    unsignedVal (leBytes size t.toNat) size = t := by
  have hnat : t.toNat < 2 ^ (8 * size) := by
    rw [Int.toNat_lt h0]
    exact_mod_cast hlt
  rw [unsignedVal_eq h1 h4 (leBytes_length _ _), leNat_leBytes _ _ hnat, Int.toNat_of_nonneg h0]

theorem encodeUnsigned_unsignedVal (hb : b.length = size) :
    encodeUnsigned (.int (unsignedVal b size)) size = some b := by
  have hlt : (leNat b : Int) < 2 ^ (8 * size) := by
    rw [← hb]
    exact_mod_cast leNat_lt b
  rw [unsignedVal_eq h1 h4 hb, encodeUnsigned_inRange h1 h4 rfl (Int.natCast_nonneg _) hlt,
    Int.toNat_natCast, ← hb, leBytes_leNat]

end

/-- The model's truncation is the one of R8 and R95. -/
theorem truncNum_of_truncatesTo {v : HostNum} {t : Int} (h : v.truncatesTo t) : truncNum v = some t := by
  obtain rfl | ⟨num, den, hden, rfl, rfl⟩ := h
  · rfl
  · exact truncNum_ratio num den hden

theorem exec_decodeUnsigned {b : List Byte} {size : Nat} {t : Int} (s : State) (h : unsignedVal b size = t) :
    exec (.decodeUnsigned b size) s = .next (setResult (.ok (.value (.int t))) s) := by
  rw [← h]
  rfl

theorem exec_encodeUnsigned_bytes {v : HostNum} {size : Nat} {b : List Byte} (s : State)
    (h : encodeUnsigned v size = some b) :
    exec (.encodeUnsigned v size) s = .next (setResult (.ok (.bytes b)) s) := by
  simp only [exec, execEncodeUnsigned, h]

theorem exec_encodeUnsigned_refused {v : HostNum} {size : Nat} (s : State) (h : encodeUnsigned v size = none) :
    exec (.encodeUnsigned v size) s = .next (failOp failRange s) := by
  simp only [exec, execEncodeUnsigned, h]

/-- Settles O37: at a legal size the model's two integers are the sum and its sign extension. -/
theorem decodersComputeValues : Obligations.DecodersComputeValues := by
  intro s b size divisor u z done h1 h4 hb hu hz hdone
  have hsum : (leNat b : Int) = u := by rw [hu, leNat_sum, hb]
  have hunsigned : u = unsignedVal b size := by rw [unsignedVal_eq h1 h4 hb, hsum]
  have hsigned : z = signedVal b size := by rw [signedVal_eq h1 h4 hb, hsum, hz]
  rw [hdone, hsigned, hunsigned]
  exact ⟨rfl, rfl, rfl, rfl, rfl, rfl⟩

/-- Settles O38: the encoder's bytes inside the bounds, and its refusal outside them or with no truncation. -/
theorem encoderTruncatesAndBounds : Obligations.EncoderTruncatesAndBounds := by
  intro s v size h1 h4
  refine ⟨fun t ht => ⟨fun h0 hlt => ?_, fun hout => ?_⟩, ?_⟩
  · have hbytes := encodeUnsigned_inRange h1 h4 (truncNum_of_truncatesTo ht) h0 hlt
    exact ⟨leBytes size t.toNat, leBytes_length _ _, leBytes_getD _ _, exec_encodeUnsigned_bytes s hbytes⟩
  · exact exec_encodeUnsigned_refused s (encodeUnsigned_outOfRange h1 h4 (truncNum_of_truncatesTo ht) hout)
  · rintro rfl
    exact exec_encodeUnsigned_refused s rfl

/-- Settles O39: the bytes of the encoder one way, the integer of the decoder the other. -/
theorem unsignedCodecInverse : Obligations.UnsignedCodecInverse := by
  intro s size h1 h4
  constructor
  · intro z h0 hmax
    have hlt : z < 2 ^ (8 * size) := by omega
    exact ⟨leBytes size z.toNat, exec_encodeUnsigned_bytes s (encodeUnsigned_inRange h1 h4 rfl h0 hlt),
      exec_decodeUnsigned s (unsignedVal_leBytes h1 h4 h0 hlt)⟩
  · intro b hb
    exact ⟨unsignedVal b size, rfl, exec_encodeUnsigned_bytes s (encodeUnsigned_unsignedVal h1 h4 hb)⟩

/-! ### Texts by exact value (R98 to R100) -/

section
variable {v : Value} {k : Int} (h : v = .int k ∨ ∃ d : Nat, 0 < d ∧ v = .scaled (k * (d : Int)) d)
include h

theorem modeTextOf_number_str : (modeTextOf v).str =
    if k = 0 then "OFF" else if k = 1 then "Warm Water" else if k = 2 then "Heating & Warm Water"
    else "UNKNOWN" := by
  simp only [modeTextOf, numEq_number v k _ h, decide_eq_true_eq]
  split_ifs <;> rfl

theorem valveTextOf_number_str : (valveTextOf v).str =
    if k = 0 then "Undefined" else if k = 1 then "Heating" else if k = 2 then "Mid Position"
    else if k = 3 then "Warm Water" else "UNKNOWN" := by
  simp only [valveTextOf, numEq_number v k _ h, decide_eq_true_eq]
  split_ifs <;> rfl

end

theorem modeTextOf_unknown {v : Value} (h : ∀ k, numEq v k = false) : modeTextOf v = .unknown := by
  simp [modeTextOf, h]

theorem valveTextOf_unknown {v : Value} (h : ∀ k, numEq v k = false) : valveTextOf v = .unknown := by
  simp [valveTextOf, h]

/-- Settles O40: a value that is the number k has the texts of k, and a fraction is none of the table's numbers. -/
theorem textTables : Obligations.TextTables := by
  intro s v
  refine ⟨modeTextOf v, valveTextOf v, rfl, rfl, fun k h => ?_, ?_⟩
  · exact ⟨modeTextOf_number_str h, valveTextOf_number_str h⟩
  · rintro z d - hfrac rfl
    have hnone (k : Int) := numEq_fraction z d k hfrac
    exact ⟨congrArg Text.str (modeTextOf_unknown hnone), congrArg Text.str (valveTextOf_unknown hnone)⟩

/-! ### The registry's lookup (R102) -/

theorem lookupName_eq_none {r : List SensorDef} {name : String} (h : ∀ d ∈ r, d.name ≠ name) :
    lookupName r name = none :=
  List.find?_eq_none.2 fun d hd => by simpa using h d hd

theorem exec_lookup {name : String} {r : Option SensorDef} (s : State) (h : lookupName s.registry name = r) :
    exec (.lookup name) s = .next (setResult (.ok (.sensor r)) s) := by
  rw [← h]
  rfl

/-- Settles O41: the lookup's result, whether the name is there or not. -/
theorem lookupFindsByName : Obligations.LookupFindsByName := by
  intro s name hunique
  exact ⟨fun d hd hname => exec_lookup s (lookupName_unique _ d name hunique hd hname),
    fun hno => exec_lookup s (lookupName_eq_none hno)⟩

end Sys2Proof.Machine
end

section
namespace Sys2Proof.Machine

/-! ### Host commands that end on acceptance, or one step later (R103, R104, R107, R108) -/

/-- Settles O9: each command's guard answers the fault. -/
theorem busyCommandHasNoMove : Obligations.BusyCommandHasNoMove := by
  intro s c hb
  cases c <;> exact if_pos hb

section
variable {s : State}

/-- A command that ends at `IDLE` changes its result and the operation's bookkeeping only (R116). -/
theorem finishCmd_of_idle (r : Result) (hp : s.phase = .idle) :
    finishCmd r s = { s with task := .idle, rsp := none, err := r.errOf, lastResult := some r } := by
  rw [finishCmd, ← hp]

/-- A command whose acceptance ends it takes that one step (R103). -/
theorem exec_cmd_finished {c : HostCmd} {r : Result} (hp : s.phase = .idle)
    (h : acceptCmd c s = finishCmd r s) : exec c.instr s = .next (endStep
      { s with task := .idle, rsp := none, err := r.errOf, lastResult := some r }) := by
  rw [exec_cmd s c hp, runCmd_done s c (by rw [h]; rfl), h, finishCmd_of_idle r hp]

/-- The step after the acceptance, of a command that goes on (R103). -/
theorem runCmd_second {c : HostCmd} (ht : (acceptCmd c s).task ≠ .idle)
    (hend : (advance (endStep (acceptCmd c s))).task = .idle) :
    runCmd c s = endStep (advance (endStep (acceptCmd c s))) := by
  have hfuel : s.opFuel = 39 + 9 * s.registry.length + 1 := by simp only [State.opFuel]; omega
  rw [runCmd, hfuel, drive_more _ _ (by simpa using ht), tick, drive_done _ _ (by simpa using hend)]

/-- The end of a step does not see where the sequencer stands and what runs. -/
theorem endStep_at (p : Phase) (k : Task) (s : State) :
    endStep { s with phase := p, task := k } = { endStep s with phase := p, task := k } := by
  simp only [endStep, State.afterDraw, State.nextDraw]
  split <;> rfl

theorem acceptOpen_of_closed (path : String) (hl : s.link = .closed) :
    acceptCmd (.openCmd path) s = { s with phase := .openPort, task := .opening path } :=
  if_neg (not_not.2 hl)

theorem acceptClose_of_held (hl : s.link ≠ .closed) :
    acceptCmd .closeCmd s = { s with phase := .closePort, task := .closing } := if_neg hl

/-- A command in the wrong link state is refused (R103). -/
theorem acceptCmd_refused {c : HostCmd}
    (h : (∃ path, c = .openCmd path) ∧ s.link ≠ .closed ∨
      (c = .getMeasurements ∨ ∃ name v, c = .writeValue name v) ∧ s.link ≠ .ready) :
    acceptCmd c s = finishCmd (.err { fail := failNotReady }) s := by
  obtain ⟨⟨path, rfl⟩, hl⟩ | ⟨rfl | ⟨name, v, rfl⟩, hl⟩ := h <;> exact if_pos hl

end

/-- Settles O43: the refusal ends the command on acceptance. -/
theorem wrongLinkStateNotReady : Obligations.WrongLinkStateNotReady :=
  fun _ _ hp h => exec_cmd_finished hp (acceptCmd_refused h)

/-- Settles O45: the acceptance, then the port's refusal at `OPEN_PORT`. -/
theorem openPortRefused : Obligations.OpenPortRefused := by
  intro s path hp hl hport
  have hstep : advance (endStep (acceptCmd (.openCmd path) s)) = finishCmd (.err { fail := failPortOpen })
      (portRefuse path { endStep s with phase := .openPort, task := .opening path }) := by
    rw [acceptOpen_of_closed path hl, endStep_at, advance_openPort _ (by simp) rfl]
    exact if_neg (by simpa [State.nextDraw] using hport)
  have hrun := runCmd_second (s := s) (c := .openCmd path) (by simp [acceptOpen_of_closed path hl])
    (by rw [hstep]; rfl)
  rw [show Instr.openCmd path = (HostCmd.openCmd path).instr from rfl, exec_cmd s _ hp, hrun, hstep]
  simp only [finishCmd, portRefuse, endStep_trace]
  rw [← hp, ← endStep_phase s]
  rfl

/-- Settles O51: the acceptance, then the release of the port at `CLOSE_PORT`; with no port held the acceptance
ends it. -/
theorem closeReleasesPort : Obligations.CloseReleasesPort := by
  refine fun s hp => ⟨fun hl => ?_, fun hl => exec_cmd_finished (c := .closeCmd) hp (if_pos hl)⟩
  have hstep : advance (endStep (acceptCmd .closeCmd s)) = finishCmd (.ok .unit)
      (portClose { endStep s with phase := .closePort, task := .closing }) := by
    rw [acceptClose_of_held hl, endStep_at, advance_closePort _ (by simp) rfl]
    rfl
  have hrun := runCmd_second (s := s) (c := .closeCmd) (by simp [acceptClose_of_held hl]) (by rw [hstep]; rfl)
  rw [show Instr.closeCmd = HostCmd.closeCmd.instr from rfl, exec_cmd s _ hp, hrun, hstep]
  simp only [finishCmd, portClose, endStep_trace]
  rw [← hp, ← endStep_phase s]
  rfl

/-! ### The checks of WRITE_VALUE (R107) -/

section
variable {s : State} {name : String} {v : HostNum}

theorem acceptWrite_unknown (hl : s.link = .ready) (h : lookupName s.registry name = none) :
    acceptCmd (.writeValue name v) s = finishCmd (.err { fail := failSensor .unknownSensor name }) s := by
  simp only [acceptCmd, acceptWrite, hl, ne_eq, not_true_eq_false, if_false, h]

variable {d : SensorDef}

theorem acceptWrite_notWritable (hl : s.link = .ready) (h : lookupName s.registry name = some d)
    (hw : Kind.writable d.kind = false) :
    acceptCmd (.writeValue name v) s = finishCmd (.err { fail := failSensor .notWritable name }) s := by
  simp [acceptCmd, acceptWrite, hl, h, hw]

theorem acceptWrite_outOfRange (hl : s.link = .ready) (h : lookupName s.registry name = some d)
    (hw : Kind.writable d.kind = true) (he : encodeUnsigned v d.size = none) :
    acceptCmd (.writeValue name v) s = finishCmd (.err { fail := failSensor .valueOutOfRange name }) s := by
  simp [acceptCmd, acceptWrite, hl, h, hw, he]

theorem acceptWrite_starts {b : List Byte} (hl : s.link = .ready) (h : lookupName s.registry name = some d)
    (hw : Kind.writable d.kind = true) (he : encodeUnsigned v d.size = some b) :
    acceptCmd (.writeValue name v) s = startWrite d.addr b { s with task := .writing } := by
  simp [acceptCmd, acceptWrite, hl, h, hw, he]

/-- Only an unsigned integer is writable (R97). -/
theorem writable_iff {k : Kind} : Kind.writable k = true ↔ ∃ n, k = .unsignedInt n := by
  cases k <;> simp [Kind.writable]

end

/-- Settles O49: each check ends the command on acceptance. -/
theorem writeValueChecksFirst : Obligations.WriteValueChecksFirst := by
  intro s name v kind hp hl h
  suffices hfin : acceptCmd (.writeValue name v) s = finishCmd (.err { fail := failSensor kind name }) s from
    exec_cmd_finished hp hfin
  obtain ⟨hnone, rfl⟩ | ⟨d, hd, ⟨hkind, rfl⟩ | ⟨hkind, rfl, h1, h4, hv⟩⟩ := h
  · exact acceptWrite_unknown hl hnone
  · refine acceptWrite_notWritable hl hd (Bool.eq_false_iff.2 fun hw => ?_)
    obtain ⟨n, hn⟩ := writable_iff.1 hw
    exact hkind n hn
  · refine acceptWrite_outOfRange hl hd (writable_iff.2 hkind) ?_
    obtain rfl | ⟨t, ht, hout⟩ := hv
    · rfl
    · exact encodeUnsigned_outOfRange h1 h4 (truncNum_of_truncatesTo ht) hout

/-! ### Derived texts (R106) -/

/-- Settles O42: neither text is the other's source. -/
theorem derivedTextsAdded : Obligations.DerivedTextsAdded := by
  refine fun s m => ⟨addDerived m, rfl, ?_⟩
  have hmode : mapGet (addDerived m) "mode_text" = mapGet (addText modeTextOf "mode" "mode_text" m) "mode_text" := by
    rw [addDerived, mapGet_addText]
    split <;> simp
  have hvalve (k : String) (hk : k ≠ "mode_text") :
      mapGet (addText modeTextOf "mode" "mode_text" m) k = mapGet m k := by
    rw [mapGet_addText]
    split <;> simp [hk.symm]
  refine ⟨fun name hm hv => ?_, fun v hv => ?_, fun hn => ?_, fun v hv => ?_, fun hn => ?_⟩
  · rw [addDerived, mapGet_addText, hvalve _ hm]
    split <;> simp [hv.symm]
  · rw [hmode, mapGet_addText, hv]
    rfl
  · rw [hmode, mapGet_addText, hn]
  · rw [addDerived, mapGet_addText, hvalve _ (by decide), hv]
    rfl
  · rw [addDerived, mapGet_addText, hvalve _ (by decide), hn, hvalve _ (by decide)]

end Sys2Proof.Machine
end

section
namespace Sys2Proof.Machine

/-! ### OPEN with a port that opens (R104) -/

/-- OPEN(path) of s has been granted the port, its handshake is to begin, and ds are the draws to come. -/
def State.opened (path : String) (ds : List Draw) (s : State) : State :=
  portGrant path { s with phase := .openPort, task := .opening path, script := ds }

@[simp] theorem opened_task (path : String) (ds : List Draw) (s : State) :
    (s.opened path ds).task = .opening path := rfl
@[simp] theorem opened_trace (path : String) (ds : List Draw) (s : State) :
    (s.opened path ds).trace = s.trace ++ [.portOpen path true] := rfl

/-- OPEN has released the port and ended with e; d was the draw of that step, and ds are those to come. -/
def State.released (e : Fail) (d : Draw) (ds : List Draw) (s : State) : State :=
  { finishCmd (.err { fail := e }) (portClose s) with rxq := d.late, script := ds }

section
variable {s : State} {path : String} {ac po cl : Draw} {ds : List Draw}

/-- The command is accepted and the port opens, in two steps; the handshake follows. -/
theorem exec_open_granted (hp : s.phase = .idle) (hl : s.link = .closed) (hs : s.script = ac :: po :: ds)
    (hok : po.portOk = true) (hlate : po.late = []) : exec (.openCmd path) s =
      .next (drive (39 + 9 * s.registry.length) (startHandshake (s.opened path ds))) := by
  have haccept : endStep (acceptCmd (.openCmd path) s) = { s with
      phase := .openPort, task := .opening path, script := po :: ds, rxq := s.rxq ++ ac.late } := by
    rw [acceptOpen_of_closed path hl]
    exact endStep_of { s with phase := .openPort, task := .opening path } ac (po :: ds) hs
  have hgrant : tick (endStep (acceptCmd (.openCmd path) s)) = startHandshake (s.opened path ds) := by
    rw [haccept, tick, advance_openPort _ (by simp) rfl]
    simp only [openPortStep, State.nextDraw, hok, if_true]
    exact endStep_quiet _ po ds (by rfl) hlate
  have hfuel : s.opFuel = 39 + 9 * s.registry.length + 1 := by simp only [State.opFuel]; omega
  refine (exec_cmd s (.openCmd path) hp).trans (congrArg _ ?_)
  rw [runCmd, hfuel, drive_more _ _ (by simp [haccept]), hgrant]

/-- An error of OPEN's handshake ends the command one step later, behind the release of the port. -/
theorem drive_open_raise (n : Nat) (e : Fail) (ht : s.task = .opening path) (hs : s.script = cl :: ds) :
    drive (n + 1) (raise e s) = s.released e cl ds := by
  rw [raise_opening e ht, drive_more n _ (by simp), tick, advance_closePort _ (by simp) rfl]
  refine (drive_done n _ (by simp [closePortStep])).trans ?_
  exact endStep_of (finishCmd (.err { fail := e }) (portClose s)) cl ds hs

end

/-- Settles O44: the port is granted, and the handshake's sync is acknowledged under OPEN. -/
theorem openEstablishesLink : Obligations.OpenEstablishesLink := by
  intro s path fails ac po tx rx sy sr rest hp hl hok hlate hlen hf htx hrx hsy hsr hs
  obtain ⟨n, hn⟩ : ∃ n, 39 + 9 * s.registry.length = n + 4 + 2 * fails.length :=
    ⟨35 + 9 * s.registry.length - 2 * fails.length, by omega⟩
  obtain ⟨ev, hrun⟩ := drive_handshake_answered n (s := s.opened path _) (by simp) rfl hlen hf htx hrx hsy
    (sr := sr) (by simp [hsr]) rfl
  refine ⟨_, exec_open_granted hp hl hs hok hlate, ?_⟩
  rw [hn]
  refine hrun ▸ ?_
  simp only [hsr, if_true]
  rw [syncAcked_opening rfl, drive_done _ _ (by simp), endStep_of _ sr rest rfl]
  exact ⟨rfl, rfl, rfl, rfl, rfl, rfl, rfl, rfl, rfl, ⟨rfl, rfl⟩, ⟨rfl, rfl, rfl, rfl⟩, ⟨rfl, rfl, rfl, rfl⟩,
    ⟨rfl, rfl⟩, ⟨rfl, rfl, rfl⟩⟩

/-- OPEN of s comes to the error e of its handshake, raised in u, with the draws cl and rest to come. -/
def OpenRaises (s u : State) (path : String) (e : Fail) (script : List Draw) : Prop :=
  (∃ n, exec (.openCmd path) s = .next (drive (n + 1) (raise e u))) ∧ u.task = .opening path ∧
    u.script = script ∧ ∃ new, u.trace = s.trace ++ new

section
variable {s : State} {path : String} {fails : List (Draw × Draw)} {ac po : Draw} {rest : List Draw}
  (hp : s.phase = .idle) (hl : s.link = .closed) (hok : po.portOk = true) (hlate : po.late = [])
  (hf : ∀ a ∈ fails, failedAttempt a)
include hp hl hok hlate hf

/-- After ten failed attempts (R68). -/
theorem open_exhausted (hlen : fails.length = 10) (hs : s.script = ac :: po :: (attemptDraws fails ++ rest)) :
    ∃ u, OpenRaises s u path (failNoHandshake (lastRead fails)) rest ∧ u.wakeCount = 10 := by
  obtain ⟨p, hrun⟩ := drive_failedAttempts (fails := fails) (s := s.opened path _)
    (18 + 9 * s.registry.length + 1) (by simp) rfl rest hlen.le hf rfl
  have hfuel : 39 + 9 * s.registry.length = 18 + 9 * s.registry.length + 1 + 2 * fails.length := by omega
  have hexec := exec_open_granted (path := path) hp hl hs hok hlate
  rw [hfuel, hrun, wakeHead_of_le (by exact hlen.ge)] at hexec
  exact ⟨_, ⟨⟨_, hexec⟩, rfl, rfl, _, List.append_assoc s.trace _ _⟩, hlen⟩

/-- With a sync that is not acknowledged (R69). -/
theorem open_rejected {tx rx sy sr : Draw} (hlen : fails.length < 10)
    (htx : tx.brings []) (hrx : rx.brings [0x05]) (hsy : sy.brings [])
    (hsr : sr.arrive = [] ∨ ∃ b, b ≠ 0x06 ∧ sr.arrive = [b])
    (hs : s.script = ac :: po :: (attemptDraws fails ++ [tx, rx, sy, sr] ++ rest)) :
    ∃ u, OpenRaises s u path (failSync sr.arrive.head?) rest ∧ u.wakeCount = fails.length + 1 := by
  obtain ⟨hone, hne⟩ := length_le_one_and_ne hsr
  obtain ⟨n, hn⟩ : ∃ n, 39 + 9 * s.registry.length = n + 1 + 4 + 2 * fails.length :=
    ⟨34 + 9 * s.registry.length - 2 * fails.length, by omega⟩
  obtain ⟨ev, hrun⟩ := drive_handshake_answered (n + 1) (s := s.opened path _) (by simp) rfl hlen hf htx hrx hsy
    hone rfl
  have hexec := exec_open_granted (path := path) hp hl hs hok hlate
  rw [hn, hrun, if_neg hne, syncMissed, endStep_raise, endStep_of _ sr rest rfl] at hexec
  exact ⟨_, ⟨⟨n, hexec⟩, rfl, rfl, _, List.append_assoc s.trace _ _⟩, rfl⟩

end

/-- Settles O46: the handshake fails at the wake loop's head or at the sync, and the port is released. -/
theorem failedOpenReleasesPort : Obligations.FailedOpenReleasesPort := by
  intro s path fails ac po cl sync rest e hp hl hok hlate hf hfail hs
  obtain ⟨u, ⟨⟨n, hexec⟩, ht, hscript, new, htrace⟩, hcount⟩ : ∃ u, OpenRaises s u path e (cl :: rest) ∧
      u.wakeCount = min 10 (fails.length + 1) := by
    obtain ⟨hlen, rfl, rfl⟩ | ⟨hlen, tx, rx, sy, sr, rfl, htx, hrx, hsy, hsr, rfl⟩ := hfail
    · obtain ⟨u, hu, hcount⟩ := open_exhausted (path := path) (rest := cl :: rest) hp hl hok hlate hf hlen
        (by simpa using hs)
      exact ⟨u, hu, by omega⟩
    · obtain ⟨u, hu, hcount⟩ := open_rejected (path := path) (rest := cl :: rest) hp hl hok hlate hf hlen htx hrx
        hsy hsr (by simpa using hs)
      exact ⟨u, hu, by omega⟩
  rw [drive_open_raise n e ht hscript] at hexec
  exact ⟨_, new, hexec, rfl, rfl, rfl, hcount, rfl, rfl, by rw [← htrace]; rfl, rfl, rfl⟩

end Sys2Proof.Machine
end

section
namespace Sys2Proof.Machine

/-! ### A host command's register access answered in full (R105, R107) -/

/-- The transaction begins behind the step that began the access, whatever the peer appends there: the flush
comes first (R34, R82). What the echo check makes of the reply ends its eight steps. -/
theorem drive_begun_answered (n : Nat) {s : State} {p q : List Byte} {before echo : Draw} {ds rest : List Draw}
    (pass : State → State) (hp : s.phase = .txFlush) (ht : s.task = .sweeping ∨ s.task = .writing)
    (hpay : s.txPayload = p) (hl : p.length ≤ 100) (hq : q.length ≤ 255)
    (hs : s.script = before :: (ds ++ echo :: rest)) (ha : answers (p.length + 3) (0x06 :: frameOf q) ds)
    (hecho : ∀ r, r.task = s.task → sameRequest s r → echoCheck q r = pass r) :
    ∃ late, drive (n + 8) (endStep s) = drive n (endStep (pass (s.answered p q late (echo :: rest)))) := by
  obtain ⟨late, hrun⟩ := drive_access_answered (s := { s with script := ds ++ echo :: rest, rxq := _ }) n hp
    (.inr (.inr ht)) hpay hl hq rfl ha
  refine ⟨late, ?_⟩
  rw [endStep_of s before _ hs, hrun]
  exact congrArg (fun r => drive n (endStep r)) (hecho (s.answered p q late (echo :: rest)) rfl ⟨rfl, rfl, rfl, rfl⟩)

/-! ### WRITE_VALUE answered by the matching reply (R107) -/

/-- WRITE_VALUE ends with the reply that echoes its request (R86, R107). -/
theorem echoCheck_writing {s : State} {addr : Addr} {n : Byte} (ht : s.task = .writing) (hk : s.reqKind = .write)
    (haddr : s.reqAddr = addr) (hn : s.reqSize = n) :
    echoCheck (writeRspPayload addr n) s = finishCmd (.ok .unit) s := by
  subst haddr hn
  have hpass : writeCheck s.reqAddr s.reqSize (writeRspPayload s.reqAddr s.reqSize) = none := writeCheck_echo _ _
  simp only [echoCheck, hk, hpass, writeReturn, ht]

/-- A well-formed entry has a legal size (R101). -/
theorem SensorDef.size_of_wf {d : SensorDef} (h : d.wf = true) : 1 ≤ d.size ∧ d.size ≤ 4 := by
  simp only [SensorDef.wf, sizeOk, Bool.and_eq_true, decide_eq_true_eq] at h
  obtain ⟨⟨⟨hsize, -⟩, -⟩, -⟩ := h
  exact hsize

/-- The encoder's bytes are the ones with these values (R95). -/
theorem eq_leBytes {data : List Byte} {n t : Nat} (hlen : data.length = n)
    (h : ∀ i < n, data.getD i 0 = BitVec.ofNat 8 (t / 256 ^ i)) : data = leBytes n t := by
  refine List.ext_getElem (hlen.trans (leBytes_length n t).symm) fun i hi hj => ?_
  have hbyte := (h i (hlen ▸ hi)).trans (leBytes_getD n t i (hlen ▸ hi)).symm
  rwa [List.getD_eq_getElem _ _ hi, List.getD_eq_getElem _ _ hj] at hbyte

/-- Settles O50: the write is accepted, its transaction is answered, and the reply passes the echo check. -/
theorem writeValueCompletes : Obligations.WriteValueCompletes := by
  intro s name v d n z data ac echo ds rest hp hl hd hwf hkind hv h0 hlt hlen hdata hs ha
  obtain ⟨h1, h4⟩ := SensorDef.size_of_wf hwf
  have hsize : sizeReg data.length = byteOfNat d.size := by rw [sizeReg, if_pos (by omega), hlen]
  have hbytes : encodeUnsigned v d.size = some data :=
    (encodeUnsigned_inRange h1 h4 (truncNum_of_truncatesTo hv) h0 hlt).trans
      (congrArg some (eq_leBytes hlen hdata).symm)
  have haccept := acceptWrite_starts hl hd (writable_iff.2 ⟨n, hkind⟩) hbytes
  have hpay : (writeReqPayload d.addr (byteOfNat d.size) data).length = d.size + 5 := hlen ▸ rfl
  obtain ⟨late, hrun⟩ := drive_begun_answered (32 + 9 * s.registry.length) (finishCmd (.ok .unit)) (ds := ds)
    (before := ac) (echo := echo) (rest := rest)
    (s := startWrite d.addr data { s with task := .writing }) (p := writeReqPayload d.addr (byteOfNat d.size) data)
    (q := writeRspPayload d.addr (byteOfNat d.size)) rfl (.inr rfl)
    (congrArg (writeReqPayload d.addr · data) hsize) (by omega) (Nat.le_add_right 5 250) hs (by rw [hpay]; exact ha)
    fun r ht ⟨hk, haddr, hn, _⟩ => echoCheck_writing ht hk haddr (hn.trans hsize)
  have hfuel : s.opFuel = 32 + 9 * s.registry.length + 8 := by simp only [State.opFuel]; omega
  have hexec := exec_cmd s (.writeValue name v) hp
  rw [runCmd, haccept, hfuel, hrun, endStep_of _ echo rest rfl, drive_done _ _ rfl] at hexec
  refine ⟨_, hexec, ?_⟩
  exact ⟨rfl, rfl, rfl, rfl, rfl, dataReg_of_le data (by omega), rfl,
    answered_txLog _ _ late (echo :: rest) _, ⟨rfl, rfl⟩, ⟨rfl, rfl⟩, ⟨rfl, rfl⟩, ⟨rfl, rfl, rfl⟩⟩

/-! ### A sweep's entry answered (R105) -/

/-- No name twice, in Mathlib's word. -/
theorem uniqueNames_iff_nodup (l : List String) : uniqueNames l = true ↔ l.Nodup := by
  induction l with
  | nil => simp [uniqueNames]
  | cons n ns ih => simp [uniqueNames, ih]

/-- A new name comes last in the map (log 22). -/
theorem mapSet_of_notMem (m : SweepMap) (name : String) (v : Field) (h : name ∉ m.map Prod.fst) :
    mapSet m name v = m ++ [(name, v)] := by
  induction m with
  | nil => rfl
  | cons e m ih =>
    obtain ⟨n, w⟩ := e
    simp only [List.map_cons, List.mem_cons, not_or] at h
    rw [mapSet, if_neg (Ne.symm h.1), ih h.2]
    rfl

/-- Of a well-formed registry an entry has a legal size and a name of its own (R101). -/
theorem registryWf_entry {r before after : List SensorDef} {d : SensorDef} (h : registryWf r = true)
    (hr : r = before ++ d :: after) :
    1 ≤ d.size ∧ d.size ≤ 4 ∧ d.name ∉ before.map SensorDef.name := by
  simp only [registryWf, Bool.and_eq_true, uniqueNames_iff_nodup, List.all_eq_true] at h
  obtain ⟨hnodup, hall⟩ := h
  subst hr
  obtain ⟨h1, h4⟩ := SensorDef.size_of_wf (hall d (by simp))
  refine ⟨h1, h4, fun hmem => ?_⟩
  rw [List.map_append, List.map_cons] at hnodup
  obtain ⟨-, -, hdisjoint⟩ := List.nodup_append.1 hnodup
  exact hdisjoint _ hmem _ (List.mem_cons_self ..) rfl

/-- A read of a legal size begins its transaction (R84). -/
theorem startRead_of_le (addr : Addr) {size : Nat} (h1 : 1 ≤ size) (h4 : size ≤ 4) (s : State) :
    startRead addr size s =
      startTransaction { s with reqKind := .read, reqAddr := addr, reqSize := byteOfNat size } := by
  rw [startRead, if_neg (by omega), BitVec.ofInt_natCast]
  rfl

@[simp] theorem answered_task (p q late : List Byte) (ds : List Draw) (s : State) :
    (s.answered p q late ds).task = s.task := rfl
@[simp] theorem answered_sweepIdx (p q late : List Byte) (ds : List Draw) (s : State) :
    (s.answered p q late ds).sweepIdx = s.sweepIdx := rfl

/-- A transaction answered in full transmits its frame, whole, and nothing else (R82). -/
theorem answered_events (p q late : List Byte) (ds : List Draw) (s : State) : ∃ new,
    (s.answered p q late ds).trace = s.trace ++ new ∧ new.countP Event.isTx = 1 ∧
      new.flatMap Event.sent = frameOf p := by
  refine ⟨_, List.append_assoc s.trace _ _, rfl, ?_⟩
  simp [Event.sent, List.take_of_length_le]

/-- The sweep has begun the transaction that reads its entry i, which is d (R105). -/
def State.readingEntry (i : Nat) (d : SensorDef) (s : State) : State :=
  startTransaction { s with sweepIdx := i, reqKind := .read, reqAddr := d.addr, reqSize := byteOfNat d.size }

@[simp] theorem readingEntry_phase (i : Nat) (d : SensorDef) (s : State) :
    (s.readingEntry i d).phase = .txFlush := rfl
@[simp] theorem readingEntry_task (i : Nat) (d : SensorDef) (s : State) :
    (s.readingEntry i d).task = s.task := rfl
@[simp] theorem readingEntry_trace (i : Nat) (d : SensorDef) (s : State) :
    (s.readingEntry i d).trace = s.trace := rfl
@[simp] theorem readingEntry_script (i : Nat) (d : SensorDef) (s : State) :
    (s.readingEntry i d).script = s.script := rfl

theorem readingEntry_txPayload (i : Nat) (d : SensorDef) {s : State} (ht : s.task = .sweeping) :
    (s.readingEntry i d).txPayload = readReqPayload d.addr (byteOfNat d.size) :=
  txPayload_read (by simp [Task.ofHost, ht]) rfl

theorem sweepEntry_of_get {i : Nat} {d : SensorDef} {s : State} (hd : s.registry[i]? = some d) (h1 : 1 ≤ d.size)
    (h4 : d.size ≤ 4) : sweepEntry i s = s.readingEntry i d := by
  simp only [sweepEntry, hd]
  exact startRead_of_le d.addr h1 h4 _

/-- A sweep goes on to decode the reply that echoes its read (R84, R105). -/
theorem echoCheck_sweeping {s : State} {addr : Addr} {n : Byte} {data : List Byte} (ht : s.task = .sweeping)
    (hk : s.reqKind = .read) (haddr : s.reqAddr = addr) (hn : s.reqSize = n) (hdata : data.length = n.toNat) :
    echoCheck (readRspPayload addr n data) s =
      { s with phase := .decode, rsp := some (readRspPayload addr n data) } := by
  subst haddr hn
  have hpass : readCheck s.reqAddr s.reqSize (readRspPayload s.reqAddr s.reqSize data) = none :=
    readCheck_eq_none_iff.2 ⟨data, hdata, rfl⟩
  simp only [echoCheck, hk, hpass, readReturn, ht]

/-- The decoded value of a reply to the entry's read enters the map, and the next entry is taken up (R105). -/
theorem decodeStep_reply {s : State} {d : SensorDef} {addr : Addr} {n : Byte} {data : List Byte}
    (hd : s.registry[s.sweepIdx]? = some d) (hr : s.rsp = some (readRspPayload addr n data)) (hn : s.reqSize = n)
    (hdata : data.length = n.toNat) : decodeStep s = sweepEntry (s.sweepIdx + 1)
      { s with sweepMap := mapSet s.sweepMap d.name (.num (decodeKind d.kind data)) } := by
  have hread : s.readData (readRspPayload addr n data) = data := by
    rw [State.readData, hn, ← hdata]
    exact List.take_length
  simp only [decodeStep, hd, hr, hread]

/-- The frame of a sweep's read of an entry (R58, R105). -/
def readFrame (d : SensorDef) : List Byte := frameOf (readReqPayload d.addr (byteOfNat d.size))

/-- An entry's value, as the sweep enters it in its map (R105). -/
def entryField (x : SensorDef × List Byte) : String × Field := (x.1.name, .num (decodeKind x.1.kind x.2))

/-- How the environment answers the read of each entry (R105). -/
def AllAnswered (entries : List SensorDef) (xs : List (List Byte × List Draw)) : Prop :=
  List.Forall₂ (fun d x => x.1.length = d.size ∧
    answersEntry (0x06 :: frameOf (readRspPayload d.addr (byteOfNat d.size) x.1)) x.2) entries xs

/-- The sweep of s has read the entries `done`, with the data beside them, and in u takes up the next one; ds are
the draws from that step on (R105). -/
structure Swept (s : State) (done : List (SensorDef × List Byte)) (ds : List Draw) (u : State) : Prop where
  task : u.task = .sweeping
  map : u.sweepMap = done.map entryField
  index : done ≠ [] → u.sweepIdx = done.length - 1
  script : u.script = ds
  draws : u.draws = s.draws
  sent : ∃ new, u.trace = s.trace ++ new ∧ new.countP Event.isTx = done.length ∧
    new.flatMap Event.sent = (done.map Prod.fst).flatMap readFrame
  frame : sameLink s u ∧ sameHandshake s u ∧ sameInputs s u

section
variable {s u : State} {done : List (SensorDef × List Byte)} {before : Draw} {ds rest : List Draw}

/-- An entry whose read is answered takes nine steps, and its value enters the map (R105). -/
theorem Swept.entry (n : Nat) {d : SensorDef} {x : List Byte} {after : List SensorDef}
    (h : Swept s done (before :: (ds ++ rest)) u) (hwf : registryWf s.registry = true)
    (hreg : s.registry = done.map Prod.fst ++ d :: after) (hx : x.length = d.size)
    (ha : answersEntry (0x06 :: frameOf (readRspPayload d.addr (byteOfNat d.size) x)) ds) :
    ∃ w draw, drive (n + 9) (endStep (sweepEntry done.length u)) =
      drive n (endStep (sweepEntry (done.length + 1) w)) ∧ Swept s (done ++ [(d, x)]) (draw :: rest) w := by
  obtain ⟨htask, hmap, -, hscript, hdraws, ⟨new, htrace, hcount, hsent⟩, hlink, hwake, hinputs⟩ := h
  obtain ⟨h1, h4, hname⟩ := registryWf_entry hwf hreg
  obtain ⟨tr, echo, decode, rfl, htr⟩ := ha
  have hentry : u.registry[done.length]? = some d := by simp [hinputs.1, hreg]
  have hsize : x.length = (byteOfNat d.size).toNat := by rw [byteOfNat_toNat _ (by omega), hx]
  have hreply := readRspPayload_length d.addr (byteOfNat d.size) x
  obtain ⟨late, hrun⟩ := drive_begun_answered (n + 1) (ds := tr) (echo := echo) (rest := decode :: rest)
    (fun r => { r with phase := .decode, rsp := some (readRspPayload d.addr (byteOfNat d.size) x) })
    (readingEntry_phase done.length d u) (.inl htask) (readingEntry_txPayload done.length d htask)
    (Nat.le_add_right 5 95) (by omega) (by simpa using hscript) htr
    fun r ht ⟨hk, haddr, hn, _⟩ => echoCheck_sweeping (ht.trans htask) hk haddr hn hsize
  rw [sweepEntry_of_get hentry h1 h4, hrun, endStep_of _ echo _ rfl,
    drive_more n _ (by simp [htask]), tick,
    advance_decode _ (by simp [htask]) rfl,
    decodeStep_reply (by exact hentry) rfl rfl hsize]
  refine ⟨_, decode, rfl, ?_⟩
  have hfresh : d.name ∉ (done.map entryField).map Prod.fst := by
    simpa [entryField, Function.comp_def] using hname
  constructor
  · exact htask
  · rw [List.map_append, ← hmap] at *
    exact mapSet_of_notMem _ _ _ hfresh
  · simp [State.readingEntry, startTransaction]
  · rfl
  · exact hdraws
  · obtain ⟨ev, hev, hone, hframe⟩ := answered_events (readReqPayload d.addr (byteOfNat d.size))
      (readRspPayload d.addr (byteOfNat d.size) x) late (echo :: decode :: rest) (u.readingEntry done.length d)
    refine ⟨new ++ ev, hev.trans (by simp [htrace]), by simp [hcount, hone], ?_⟩
    simp [hsent, hframe, readFrame]
  · exact ⟨hlink, hwake, hinputs⟩

/-- So is each of a list of entries, one after the other (R105). -/
theorem Swept.entries (n : Nat) {todo after : List SensorDef} {xs : List (List Byte × List Draw)}
    (hall : AllAnswered todo xs) (h : Swept s done (before :: (xs.flatMap Prod.snd ++ rest)) u)
    (hwf : registryWf s.registry = true) (hreg : s.registry = done.map Prod.fst ++ todo ++ after) :
    ∃ w draw, drive (n + 9 * todo.length) (endStep (sweepEntry done.length u)) =
        drive n (endStep (sweepEntry (done.length + todo.length) w)) ∧
      Swept s (done ++ todo.zip (xs.map Prod.fst)) (draw :: rest) w := by
  induction hall generalizing done before u with
  | nil => exact ⟨u, before, rfl, by simpa using h⟩
  | @cons d x todo xs hx _ ih =>
    obtain ⟨hlen, hans⟩ := hx
    obtain ⟨v, draw, hrun, hv⟩ := Swept.entry (n + 9 * todo.length) (ds := x.2)
      (rest := xs.flatMap Prod.snd ++ rest) (by simpa using h) hwf (by simpa using hreg) hlen hans
    obtain ⟨w, draw', hrun', hw⟩ := ih hv (by simpa using hreg)
    refine ⟨w, draw', ?_, by simpa using hw⟩
    rw [List.length_append, List.length_singleton] at hrun'
    rw [List.length_cons, show n + 9 * (todo.length + 1) = n + 9 * todo.length + 9 by omega, hrun, hrun']
    congr 3
    omega

end

/-- GET_MEASUREMENTS of s with the link ready takes up its first entry (R105). -/
theorem exec_sweep {s : State} (hp : s.phase = .idle) (hl : s.link = .ready) : exec .getMeasurements s =
    .next (drive s.opFuel (endStep (sweepEntry 0 { s with task := .sweeping, sweepMap := [] }))) := by
  refine (exec_cmd s .getMeasurements hp).trans ?_
  simp only [runCmd, acceptCmd, acceptSweep, hl, ne_eq, not_true_eq_false, if_false]

/-- It stands there with nothing read. -/
theorem swept_nil {s : State} {ds : List Draw} (hs : s.script = ds) :
    Swept s [] ds { s with task := .sweeping, sweepMap := [] } :=
  ⟨rfl, rfl, (absurd rfl ·), hs, rfl, ⟨[], (List.append_nil _).symm, rfl, rfl⟩, ⟨rfl, rfl⟩, ⟨rfl, rfl⟩,
    ⟨rfl, rfl, rfl⟩⟩

/-- Settles O47: all entries are answered, and the sweep ends behind the last. -/
theorem sweepReturnsMap : Obligations.SweepReturnsMap := by
  intro s xs ac rest hp hl hwf hall hs
  obtain ⟨w, draw, hrun, hw⟩ := (swept_nil hs).entries 40 (after := []) hall hwf (by simp)
  obtain ⟨htask, hmap, hidx, hscript, -, ⟨new, htrace, -, hsent⟩, hlink, hwake, hinputs⟩ := hw
  have hlen : s.registry.length = (xs.map Prod.fst).length := by rw [List.length_map, hall.length_eq]
  have hend : endStep (sweepEntry s.registry.length w) = { finishSweep w with
      script := rest, rxq := w.rxq ++ draw.late } := by
    have hsweep : sweepEntry s.registry.length w = finishSweep w := by simp [sweepEntry, hinputs.1]
    rw [hsweep]
    exact endStep_of (finishSweep w) draw rest hscript
  rw [List.length_nil, Nat.zero_add, hend, drive_done 40 _ rfl] at hrun
  refine ⟨_, (exec_sweep hp hl).trans (congrArg _ hrun), ?_, rfl, rfl, rfl, ?_, fun hne => ?_, hlink, hwake,
    hinputs⟩
  · have hzip : w.sweepMap =
        List.zipWith (fun d x => (d.name, Field.num (decodeKind d.kind x.1))) s.registry xs := by
      rw [hmap, List.nil_append, List.zip, List.map_zipWith, List.zipWith_map_right]
      rfl
    rw [← hzip]
    rfl
  · have hnames : ((s.registry.zip (xs.map Prod.fst)).map Prod.fst) = s.registry :=
      List.map_fst_zip hlen.le
    change w.trace.flatMap Event.sent = _
    rw [htrace, List.flatMap_append, hsent, List.nil_append, hnames]
    rfl
  · have hcount : ([] ++ s.registry.zip (xs.map Prod.fst)).length = s.registry.length := by simp [hlen]
    have hsome := List.ne_nil_of_length_pos (hcount ▸ List.length_pos_iff.2 hne)
    exact (hidx hsome).trans (by rw [hcount])

end Sys2Proof.Machine
end

section
namespace Sys2Proof.Machine

/-! ### Two register accesses in the same environment (R82, R84, R86) -/

/-- What a register access does not write before it ends. -/
def State.access (s : State) := (s.untilLineEnds, s.opResult)

/-- What a reply is judged by (R85, R87), and the reply itself once it is there. -/
def State.asking (s : State) := (s.reqKind, s.reqAddr, s.reqSize, s.rsp)

/-- What the next step of a parse rests on of what it has read itself (R77 to R79). -/
def State.received (s : State) : Byte × List Byte :=
  match s.phase with
  | .rxBody => (s.declaredSize, [])
  | .check => (s.declaredSize, s.rxbuf)
  | _ => (0, [])

/-- Two register accesses, begun in s₁ and s₂ whatever commands they serve, are in u₁ and u₂ in the same place of
the same transaction, after the same interactions, of which at most k were transmissions. Like `Alike` it unfolds to
the same for states that differ from u₁ and u₂ in other registers only. -/
def Abreast (k : Nat) (s₁ s₂ u₁ u₂ : State) : Prop :=
  Alike s₁ s₂ u₁ (u₂.under u₁.task) ∧ u₂.asking = u₁.asking ∧
    u₁.trace.countP Event.isTx ≤ s₁.trace.countP Event.isTx + k ∧ u₁.access = s₁.access ∧ u₂.access = s₂.access

/-- One step of each, of an access with k steps left: both go on, raise the same error, or return alike. -/
inductive AccessStep (s₁ s₂ : State) (k : Nat) : State → State → Prop
  | goesOn {u₁ u₂ : State} (h : Abreast 1 s₁ s₂ u₁ u₂) (hr : u₂.received = u₁.received)
      (hleft : 0 < u₁.stepsLeft ∧ u₁.stepsLeft < k) : AccessStep s₁ s₂ k u₁ u₂
  | raised {u₁ u₂ : State} (e : Fail) (h : Abreast 1 s₁ s₂ u₁ u₂) : AccessStep s₁ s₂ k (raise e u₁) (raise e u₂)
  | read {u₁ u₂ : State} (p : List Byte) (h : Abreast 1 s₁ s₂ u₁ u₂) (hk : u₁.reqKind = .read) :
      AccessStep s₁ s₂ k (readReturn p u₁) (readReturn p u₂)
  | wrote {u₁ u₂ : State} (h : Abreast 1 s₁ s₂ u₁ u₂) (hk : u₁.reqKind = .write) :
      AccessStep s₁ s₂ k (writeReturn u₁) (writeReturn u₂)

/-- A task with a register access under it. -/
def AccessTask (t : Task) : Prop := t = .regRead ∨ t = .regWrite ∨ t = .sweeping ∨ t = .writing

theorem AccessTask.runs {t : Task} (h : AccessTask t) : t ≠ .idle := by
  obtain rfl | rfl | rfl | rfl := h <;> simp

section
variable {k : Nat} {s₁ s₂ u₁ u₂ : State}

theorem Abreast.alike (h : Abreast k s₁ s₂ u₁ u₂) : Alike s₁ s₂ u₁ (u₂.under u₁.task) := h.1

theorem Abreast.asking (h : Abreast k s₁ s₂ u₁ u₂) : u₂.asking = u₁.asking := h.2.1

theorem Abreast.accessLeft (h : Abreast k s₁ s₂ u₁ u₂) : u₁.access = s₁.access := by
  obtain ⟨-, -, -, hleft, -⟩ := h
  exact hleft

theorem Abreast.readBytes (h : Abreast k s₁ s₂ u₁ u₂) (n : Nat) : u₂.readBytes n = u₁.readBytes n :=
  h.alike.readBytes n

theorem Abreast.phase (h : Abreast k s₁ s₂ u₁ u₂) : u₂.phase = u₁.phase := h.alike.phase

theorem Abreast.rsp (h : Abreast k s₁ s₂ u₁ u₂) : u₂.rsp = u₁.rsp := congrArg (·.2.2.2) h.asking

theorem Abreast.rxRead (h : Abreast k s₁ s₂ u₁ u₂) (n : Nat) :
    Abreast k s₁ s₂ (rxRead n u₁) (rxRead n u₂) := by
  obtain ⟨halike, hask, hsent, hleft, hright⟩ := h
  exact ⟨halike.rxRead n, hask, by simpa [Event.isTx] using hsent, hleft, hright⟩

theorem Abreast.goesTo (h : Abreast k s₁ s₂ u₁ u₂) (p : Phase) :
    Abreast k s₁ s₂ { u₁ with phase := p } { u₂ with phase := p } := by
  obtain ⟨halike, hask, hsent, hleft, hright⟩ := h
  exact ⟨halike.goesTo p, hask, hsent, hleft, hright⟩

theorem Abreast.withRsp (h : Abreast k s₁ s₂ u₁ u₂) (r : Option (List Byte)) :
    Abreast k s₁ s₂ { u₁ with rsp := r } { u₂ with rsp := r } := by
  obtain ⟨halike, hask, hsent, hleft, hright⟩ := h
  exact ⟨halike, congrArg (fun a => (a.1, a.2.1, a.2.2.1, r)) hask, hsent, hleft, hright⟩

@[simp] theorem endStep_access (s : State) : (endStep s).access = s.access := by
  simp [State.access, State.untilLineEnds, State.besideLine, State.request]

/-- The peer appends the same to both (R34). -/
theorem Abreast.endStep (h : Abreast k s₁ s₂ u₁ u₂) : Abreast k s₁ s₂ (endStep u₁) (endStep u₂) := by
  obtain ⟨halike, hask, hsent, hleft, hright⟩ := h
  refine ⟨?_, by simpa [State.asking] using hask, by simpa using hsent, by simpa using hleft, by simpa using hright⟩
  have hunder : (Machine.endStep u₂).under (Machine.endStep u₁).task = Machine.endStep (u₂.under u₁.task) := by
    rw [endStep_task]
    exact endStep_withTask _ _
  rw [hunder]
  exact halike.endStep

/-- Such as a transmission of l, the first (R30). -/
theorem Abreast.txWrite (h : Abreast 0 s₁ s₂ u₁ u₂) (l : List Byte) :
    Abreast 1 s₁ s₂ (txWrite l u₁) (txWrite l u₂) := by
  obtain ⟨halike, hask, hsent, hleft, hright⟩ := h
  have hdraw : u₂.nextDraw = u₁.nextDraw := halike.nextDraw
  have hwrite : Machine.txWrite l u₂ = { u₂ with
      rxq := u₂.rxq ++ u₁.nextDraw.arrive, trace := u₂.trace ++ [.tx l (u₁.accepted l)] } := by
    rw [Machine.txWrite, State.accepted, hdraw]
    rfl
  rw [hwrite]
  exact ⟨halike.sent l _ _, hask, by simpa [Event.isTx] using hsent, hleft, hright⟩

/-- The frame of a payload that fits is built and transmitted (R74, R82). -/
theorem sendFrame_of_le {p : List Byte} (s : State) (hl : p.length ≤ 100) : sendFrame p s = Machine.transmit
    { s with acc := checksum (byteOfNat p.length) p, txbuf := frameOf p, phase := .txFrame } := by
  have hfits : tooLarge p = false := decide_eq_false (Nat.not_lt.2 hl)
  simp [sendFrame, hfits, buildFrame_eq]

/-- Both transmit what stands in `txbuf`, in part or whole (R82). -/
theorem Abreast.transmit (h : Abreast 0 s₁ s₂ u₁ u₂) (hb : u₂.txbuf = u₁.txbuf) :
    AccessStep s₁ s₂ 7 (transmit u₁) (transmit u₂) := by
  have hcount : u₂.accepted u₁.txbuf = u₁.accepted u₁.txbuf :=
    congrArg (fun d : Draw => min d.accept u₁.txbuf.length) h.alike.nextDraw
  have hsent := h.txWrite u₁.txbuf
  unfold Machine.transmit
  dsimp only
  rw [hb, hcount]
  by_cases hpart : u₁.accepted u₁.txbuf < u₁.txbuf.length
  · rw [if_pos hpart, if_pos hpart]
    exact .raised _ hsent
  · rw [if_neg hpart, if_neg hpart]
    exact .goesOn (hsent.goesTo .rxAck) rfl (by simp [State.stepsLeft])

variable (h : Abreast 1 s₁ s₂ u₁ u₂)
include h

/-- R75. -/
theorem Abreast.ackStep (hp : u₁.phase = .rxAck) (ht₁ : u₁.task ≠ .idle) (ht₂ : u₂.task ≠ .idle) :
    AccessStep s₁ s₂ 6 (advance u₁) (advance u₂) := by
  have hread := h.rxRead 1
  rw [advance_rxAck u₁ ht₁ hp, advance_rxAck u₂ ht₂ (h.phase.trans hp), h.readBytes 1]
  split
  · exact .goesOn (by exact hread.goesTo .rxStart) rfl (by simp [State.stepsLeft, ackReceived])
  · split
    · exact .raised failNak (by exact hread)
    · unfold ackMissed
      split
      · exact .raised failNoAck hread
      · exact .raised _ (by exact hread)

/-- R76. -/
theorem Abreast.startStep : AccessStep s₁ s₂ 5 (startStep u₁) (startStep u₂) := by
  have hread := h.rxRead 1
  unfold Machine.startStep
  rw [h.readBytes 1]
  obtain hnone | ⟨b, hb⟩ := readBytes_one u₁
  · rw [hnone]
    exact .raised _ hread
  · rw [hb]
    dsimp only
    split
    · exact .raised _ (by exact hread)
    · exact .goesOn (by exact hread.goesTo .rxLen) rfl (by simp [State.stepsLeft])

/-- R77. -/
theorem Abreast.lenStep : AccessStep s₁ s₂ 4 (lenStep u₁) (lenStep u₂) := by
  have hread := h.rxRead 1
  unfold Machine.lenStep
  rw [h.readBytes 1]
  obtain hnone | ⟨b, hb⟩ := readBytes_one u₁
  · rw [hnone]
    exact .raised _ hread
  · rw [hb]
    exact .goesOn (by exact hread.goesTo .rxBody) rfl (by simp [State.stepsLeft])

/-- R78. -/
theorem Abreast.bodyStep (hsize : u₂.declaredSize = u₁.declaredSize) :
    AccessStep s₁ s₂ 3 (bodyStep u₁) (bodyStep u₂) := by
  have hread := h.rxRead (u₁.declaredSize.toNat + 1)
  unfold Machine.bodyStep
  dsimp only
  rw [hsize, h.readBytes]
  split
  · exact .raised _ (by exact hread)
  · exact .goesOn (by exact (hread.goesTo .check).withRsp none) (by simp [State.received, hsize])
      (by simp [State.stepsLeft])

/-- R79: the payload goes to the echo check. -/
theorem Abreast.checkFrame (ht₁ : AccessTask u₁.task) (ht₂ : AccessTask u₂.task)
    (hsize : u₂.declaredSize = u₁.declaredSize) (hbody : u₂.rxbuf = u₁.rxbuf) :
    AccessStep s₁ s₂ 2 (checkFrame u₁) (checkFrame u₂) := by
  have hcheck := h.goesTo .check
  simp only [Machine.checkFrame, ckRun_eq, State.rxPayload, hsize, hbody]
  split
  · exact .raised _ (by exact hcheck)
  · split
    · exact .raised _ (by exact hcheck)
    · rw [parseReturn_register _ (by exact ht₁), parseReturn_register _ (by exact ht₂)]
      exact .goesOn (by exact hcheck.withRsp _) rfl (by simp [State.stepsLeft])

/-- R85, R87. -/
theorem Abreast.echoCheck (p : List Byte) : AccessStep s₁ s₂ 1 (echoCheck p u₁) (echoCheck p u₂) := by
  have hask := h.asking
  simp only [State.asking, Prod.mk.injEq] at hask
  obtain ⟨hkind, haddr, hsize, -⟩ := hask
  unfold Machine.echoCheck
  rw [hkind, haddr, hsize]
  cases hk : u₁.reqKind with
  | read =>
    dsimp only
    split
    · exact .raised _ h
    · exact .read p h hk
  | write =>
    dsimp only
    split
    · exact .raised _ h
    · exact .wrote h hk

/-- One step of each behind the transmission. -/
theorem Abreast.advance (hr : u₂.received = u₁.received) (ht₁ : AccessTask u₁.task) (ht₂ : AccessTask u₂.task)
    (hleft : 0 < u₁.stepsLeft ∧ u₁.stepsLeft ≤ 6) :
    AccessStep s₁ s₂ u₁.stepsLeft (advance u₁) (advance u₂) := by
  have hrun₁ := ht₁.runs
  have hrun₂ := ht₂.runs
  have hphase := h.phase
  cases hp : u₁.phase with
  | idle | openPort | hsWakeTx | hsWakeRx | hsSyncTx | hsSyncRx | decode | closePort | txFlush | txFrame =>
    simp [State.stepsLeft, hp] at hleft
  | rxAck =>
    simp only [State.stepsLeft, hp]
    exact h.ackStep hp hrun₁ hrun₂
  | rxStart =>
    rw [hp] at hphase
    simp only [State.stepsLeft, hp, advance_rxStart _ hrun₁ hp, advance_rxStart _ hrun₂ hphase]
    exact h.startStep
  | rxLen =>
    rw [hp] at hphase
    simp only [State.stepsLeft, hp, advance_rxLen _ hrun₁ hp, advance_rxLen _ hrun₂ hphase]
    exact h.lenStep
  | rxBody =>
    rw [hp] at hphase
    simp only [State.received, hp, hphase, Prod.mk.injEq] at hr
    simp only [State.stepsLeft, hp, advance_rxBody _ hrun₁ hp, advance_rxBody _ hrun₂ hphase]
    exact h.bodyStep hr.1
  | check =>
    rw [hp] at hphase
    simp only [State.received, hp, hphase, Prod.mk.injEq] at hr
    cases hrsp : u₁.rsp with
    | none =>
      simp only [State.stepsLeft, hp, hrsp, if_true, advance_check _ hrun₁ hp hrsp,
        advance_check _ hrun₂ hphase (h.rsp.trans hrsp)]
      exact h.checkFrame ht₁ ht₂ hr.1 hr.2
    | some p =>
      simp only [State.stepsLeft, hp, hrsp, advance_echo _ p hrun₁ hp hrsp,
        advance_echo _ p hrun₂ hphase (h.rsp.trans hrsp)]
      exact h.echoCheck p

end

end Sys2Proof.Machine
end

section
namespace Sys2Proof.Machine

/-! ### A sweep's failing read (R105, R118) -/

section
variable {s₁ s₂ u₁ u₂ : State} {k : Nat}

@[simp] theorem received_endStep (s : State) : (endStep s).received = s.received := by
  simp [State.received]

theorem Abreast.tasks (h : Abreast k s₁ s₂ u₁ u₂) : u₁.task = s₁.task ∧ u₂.task = s₂.task := by
  obtain ⟨-, -, -, hleft, hright⟩ := h
  exact ⟨congrArg (·.1.1) hleft, congrArg (·.1.1) hright⟩

/-- Driven on, a sweep's read beside a `REG_READ` on its own that fails raises the same error (R105). -/
theorem AccessStep.fails {t₁ t₂ : State} {n m : Nat} {c : Fail} (h : AccessStep s₁ s₂ k t₁ t₂)
    (ht₁ : s₁.task = .sweeping) (ht₂ : s₂.task = .regRead) (hk : k ≤ 7) (hn : k ≤ n + 1) (hm : k ≤ m + 1)
    (hc : (drive m (endStep t₂)).opResult = some (.err { fail := c })) : ∃ v₁ v₂,
      drive n (endStep t₁) = raise c v₁ ∧ drive m (endStep t₂) = raise c v₂ ∧
      Abreast 1 s₁ s₂ v₁ v₂ := by
  induction k using Nat.strong_induction_on generalizing t₁ t₂ n m with
  | _ k ih =>
  cases h with
  | goesOn h hr hleft =>
    obtain ⟨hpos, hlt⟩ := hleft
    obtain ⟨htask₁, htask₂⟩ := h.endStep.tasks
    have hacc₁ : AccessTask (endStep t₁).task := .inr (.inr (.inl (htask₁.trans ht₁)))
    have hacc₂ : AccessTask (endStep t₂).task := .inl (htask₂.trans ht₂)
    have hstep := h.endStep.advance (by simpa using hr) hacc₁ hacc₂ (by simp; omega)
    rw [stepsLeft_endStep] at hstep
    obtain ⟨n, rfl⟩ : ∃ n', n = n' + 1 := ⟨n - 1, by omega⟩
    obtain ⟨m, rfl⟩ : ∃ m', m = m' + 1 := ⟨m - 1, by omega⟩
    rw [drive_more m _ hacc₂.runs] at hc ⊢
    rw [drive_more n _ hacc₁.runs]
    exact ih _ hlt hstep (by omega) (by omega) (by omega) hc
  | @raised u₁ u₂ e h =>
    obtain ⟨htask₁, htask₂⟩ := h.endStep.tasks
    have hlocal := raise_local e (endStep u₂) (.inr (.inr (.inl (htask₂.trans ht₂))))
    rw [endStep_raise] at hc ⊢
    rw [endStep_raise, drive_done n _ (raise_task e _ fun p hp => by simp [htask₁.symm.trans hp] at ht₁)]
    rw [hlocal, drive_done m _ rfl] at hc ⊢
    obtain rfl : e = c := by simpa using hc
    exact ⟨_, _, rfl, hlocal.symm, h.endStep⟩
  | @read u₁ u₂ p h _ =>
    have hlocal := readReturn_local p (.inr (.inr (.inl (h.tasks.2.trans ht₂))))
    rw [hlocal, drive_done _ _ (by simp)] at hc
    simp at hc
  | @wrote u₁ u₂ h _ =>
    have hlocal := writeReturn_local (.inr (.inr (.inl (h.tasks.2.trans ht₂))))
    rw [hlocal, drive_done _ _ (by simp)] at hc
    simp at hc

end

/-- `REG_READ` of the entry d on its own has begun its transaction (R84). -/
def State.readingAlone (d : SensorDef) (s : State) : State :=
  startTransaction { s.under .regRead with reqKind := .read, reqAddr := d.addr, reqSize := byteOfNat d.size }

section
variable {w u : State} {k : Nat} {d : SensorDef} {draw : Draw}

/-- A sweep's read of an entry and a `REG_READ` of it on its own, in the same environment: behind the flush both
send their frame (R74, R82). -/
theorem readingEntry_sends {p : List Byte} (hl : p.length ≤ 100) (hs : w.script = draw :: u.script)
    (hdraws : w.draws = u.draws) : AccessStep (endStep (w.readingEntry k d)) (u.readingAlone d) 7
      (sendFrame p (endStep ((endStep (w.readingEntry k d)).frameBuilt p)))
      (sendFrame p (endStep ((u.readingAlone d).frameBuilt p))) := by
  have hbuilt : Abreast 0 (endStep (w.readingEntry k d)) (u.readingAlone d)
      ((endStep (w.readingEntry k d)).frameBuilt p) ((u.readingAlone d).frameBuilt p) := by
    rw [endStep_of (w.readingEntry k d) draw u.script hs]
    refine ⟨⟨?_, [.flush], rfl, rfl⟩, rfl, ?_, rfl, rfl⟩
    · simp [State.facing, State.under, State.frameBuilt, State.readingAlone, startTransaction, State.readingEntry,
        hdraws]
    · simp [Event.isTx]
  rw [sendFrame_of_le _ hl, sendFrame_of_le _ hl]
  exact Abreast.transmit (by exact hbuilt.endStep.goesTo .txFrame) rfl

@[simp] theorem endStep_txPayload (s : State) : (endStep s).txPayload = s.txPayload := by
  simp [State.txPayload]

/-- The sweep's read fails as the one on its own does (R105). -/
theorem sweepEntry_fails (n : Nat) {v : State} {c : Fail} (ht : w.task = .sweeping)
    (hd : w.registry[k]? = some d) (h1 : 1 ≤ d.size) (h4 : d.size ≤ 4) (hs : w.script = draw :: u.script)
    (hdraws : w.draws = u.draws) (hexec : exec (.regRead d.addr (d.size : Int)) u = .next v)
    (hc : v.opResult = some (.err { fail := c })) :
    ∃ z new, drive (n + 8) (endStep (sweepEntry k w)) = raise c z ∧ z.access = (w.readingEntry k d).access ∧
      z.trace = w.trace ++ new ∧ v.trace = u.trace ++ new ∧ new.countP Event.isTx ≤ 1 ∧
      v.script = z.script ∧ v.rxq = z.rxq := by
  generalize hpay : readReqPayload d.addr (byteOfNat d.size) = p
  have hl : p.length ≤ 100 := hpay ▸ Nat.le_add_right 5 95
  obtain ⟨m, hm⟩ := runOp_drive .regRead (startRead d.addr d.size) u
  have hv : v = (drive (m + 8) (u.readingAlone d)).under u.task := by
    rw [startRead_of_le d.addr h1 h4] at hm
    exact (Host.Outcome.next.inj hexec).symm.trans hm
  rw [drive_framed (s := u.readingAlone d) (m + 6) rfl nofun hpay hl] at hv
  rw [sweepEntry_of_get hd h1 h4, drive_framed (p := p) (n + 6) (by simp) (by simp [ht])
    (by rw [endStep_txPayload, readingEntry_txPayload k d ht, hpay]) hl]
  have hfails : (drive (m + 6) (endStep (sendFrame p (endStep ((u.readingAlone d).frameBuilt p))))).opResult =
      some (.err { fail := c }) := by
    rw [← hc, hv]
    rfl
  obtain ⟨v₁, v₂, hv₁, hv₂, halike, -, hsent, hleft, -⟩ := (readingEntry_sends hl hs hdraws).fails (k := 7)
    (n := n + 6) (by simpa using ht) rfl le_rfl (by omega) (by omega) hfails
  obtain ⟨new, hnew₁, hnew₂⟩ := halike.2
  rw [hnew₁, List.countP_append] at hsent
  rw [hv, hv₂]
  exact ⟨v₁, new, hv₁, by simpa using hleft, by simpa using hnew₁, (raise_trace c v₂).trans hnew₂, by omega,
    (raise_script c v₂).trans halike.script, (raise_rxq c v₂).trans halike.rxq⟩

end

/-- Settles O48: the entries before are read, and the next one's read fails as `REG_READ` on its own does. -/
theorem sweepStopsAtFailure : Obligations.SweepStopsAtFailure := by
  intro s u v before after d xs ac rest c last hp hl hwf hreg hall hs hu hdraws hexec hres htr
  obtain ⟨w, draw, hrun, hw⟩ := (swept_nil hs).entries (33 + 9 * after.length + 8 + 8) (after := d :: after) hall hwf
    (by simpa using hreg)
  obtain ⟨htask, -, -, hscript, hwdraws, ⟨pre, htrace, hcount, -⟩, hlink, hwake, hinputs⟩ := hw
  obtain ⟨h1, h4, -⟩ := registryWf_entry hwf hreg
  have hentry : w.registry[before.length]? = some d := by simp [hinputs.1, hreg]
  obtain ⟨z, new, hfail, haccess, hztrace, hvtrace, hone, hzscript, hzrxq⟩ := sweepEntry_fails
    (33 + 9 * after.length + 8) htask hentry h1 h4 (hu ▸ hscript) (hwdraws.trans hdraws.symm) hexec hres
  obtain rfl : last = new := List.append_cancel_left (htr.symm.trans hvtrace)
  rw [List.length_nil, Nat.zero_add, hfail] at hrun
  have hexec' := exec_sweep hp hl
  have hfuel : s.opFuel = 33 + 9 * after.length + 8 + 8 + 9 * before.length := by
    rw [State.opFuel, hreg, List.length_append, List.length_cons]
    omega
  simp only [State.access, State.untilLineEnds, State.besideLine, Prod.mk.injEq] at haccess
  obtain ⟨⟨hztask, -, ⟨⟨hzlink, -⟩, -, ⟨hzidx, -⟩, -, ⟨hzreg, -⟩⟩, -⟩, -⟩ := haccess
  have hzentry : z.registry[z.sweepIdx]? = some d := by
    rw [hzreg, hzidx]
    exact hentry
  rw [hfuel, hrun, raise_sweeping c (hztask.trans htask) hzentry] at hexec'
  refine ⟨_, pre, hexec', ⟨_, rfl, rfl, rfl⟩, rfl, hzidx, hzlink.trans (hlink.1.trans hl), rfl, hzscript.symm,
    hzrxq.symm, ?_, ?_, hone⟩
  · rw [← htrace]
    exact hztrace
  · simpa [hall.length_eq] using hcount

end Sys2Proof.Machine
end

section
namespace Sys2Proof.Machine

/-! ### One step of a host command's register access -/

/-- One step of the register access of a sweep or a write: it goes on, raises an error, or returns. -/
inductive AccessMove (s : State) : State → Prop
  | goesOn {u : State} (h : u.access = s.access) (hleft : 0 < u.stepsLeft) : AccessMove s u
  | raised {u : State} (e : Fail) (h : u.access = s.access) : AccessMove s (raise e u)
  | read {u : State} (p : List Byte) (h : u.access = s.access) (hk : u.reqKind = .read) :
      AccessMove s (readReturn p u)
  | wrote {u : State} (h : u.access = s.access) (hk : u.reqKind = .write) : AccessMove s (writeReturn u)

/-- The first of two accesses, alone. -/
theorem AccessStep.left {s₁ s₂ t₁ t₂ : State} {k : Nat} (h : AccessStep s₁ s₂ k t₁ t₂) : AccessMove s₁ t₁ := by
  cases h with
  | goesOn h _ hleft => exact .goesOn h.accessLeft hleft.1
  | raised e h => exact .raised e h.accessLeft
  | read p h hk => exact .read p h.accessLeft hk
  | wrote h hk => exact .wrote h.accessLeft hk

/-- An access stands abreast of itself. -/
theorem abreast_self (k : Nat) {s u : State} (h : u.access = s.access) (ht : u.trace = s.trace) :
    Abreast k s s u u := by
  have htrace : u.trace = s.trace ++ [] := by rw [ht, List.append_nil]
  exact ⟨⟨rfl, [], htrace, htrace⟩, rfl, by rw [ht]; exact Nat.le_add_right _ _, h, h⟩

section
variable {s u : State}

/-- Behind the transmission (R82). -/
theorem stepsLeft_le_six (hflush : s.phase ≠ .txFlush) (hframe : s.phase ≠ .txFrame) : s.stepsLeft ≤ 6 := by
  unfold State.stepsLeft
  split
  case h_1 hp => exact absurd hp hflush
  case h_2 hp => exact absurd hp hframe
  case h_7 => split <;> omega
  all_goals omega

/-- The flush and a frame's transmission are one access's alone; behind them two go abreast. -/
theorem advance_accessMove (ht : AccessTask s.task) (hk : 0 < s.stepsLeft) : AccessMove s (advance s) := by
  have hrun := ht.runs
  by_cases hflush : s.phase = .txFlush
  · rw [advance_txFlush s hrun hflush]
    unfold flushStep
    dsimp only
    split
    · exact .raised _ rfl
    · rw [buildFrame_eq]
      exact .goesOn rfl (by simp [State.stepsLeft])
  by_cases hframe : s.phase = .txFrame
  · by_cases hf : ∃ p, p.length ≤ 100 ∧ s.txbuf = frameOf p
    · obtain ⟨p, hl, hb⟩ := hf
      rw [advance_txFrame s p hrun hframe hl hb, requestSent, sendFrame_of_le s hl]
      have hself := abreast_self 0 (s := s)
        (u := { s with acc := checksum (byteOfNat p.length) p, txbuf := frameOf p, phase := .txFrame }) rfl rfl
      exact (hself.transmit rfl).left
    · rw [advance_txFrame_raw s hrun hframe fun p hl hb => hf ⟨p, hl, hb⟩]
      exact ((abreast_self 0 (s := s) rfl rfl).transmit rfl).left
  · have hself := abreast_self 1 (s := s) (u := s) rfl rfl
    exact (hself.advance rfl ht ht ⟨hk, stepsLeft_le_six hflush hframe⟩).left

end

/-! ### What a running host command leaves alone -/

/-- What GET_MEASUREMENTS does not write (R105, R115). -/
def State.besideSweep (s : State) :=
  ((s.link, s.portHeld), (s.wakeCount, s.wakeLast), s.reqData, (s.registry, s.hostq, s.resetIn), s.opResult)

/-- What WRITE_VALUE does not write (R107, R115). -/
def State.besideWrite (s : State) :=
  ((s.link, s.portHeld), (s.wakeCount, s.wakeLast), (s.sweepIdx, s.sweepMap),
    (s.registry, s.hostq, s.resetIn), s.opResult)

/-- What OPEN does not write (R104). -/
def State.besideOpen (s : State) :=
  ((s.acc, s.txbuf), (s.ackByte, s.startByte, s.declaredSize, s.rxbuf),
    (s.reqKind, s.reqAddr, s.reqSize, s.reqData), (s.sweepIdx, s.sweepMap),
    (s.registry, s.hostq, s.resetIn), s.opResult)

/-- GET_MEASUREMENTS of s runs in u, or has ended there. -/
def SweepRuns (s u : State) : Prop := u.besideSweep = s.besideSweep ∧
  (u.task = .idle ∨ u.task = .sweeping ∧ u.reqKind = .read ∧ (0 < u.stepsLeft ∨ u.phase = .decode))

/-- WRITE_VALUE of s runs in u, or has ended there. -/
def WriteRuns (s u : State) : Prop := u.besideWrite = s.besideWrite ∧
  (u.task = .idle ∨ u.task = .writing ∧ u.reqKind = .write ∧ 0 < u.stepsLeft)

/-- OPEN of s runs in u, or has ended there. -/
def OpenRuns (s u : State) : Prop := u.besideOpen = s.besideOpen ∧
  (u.task = .idle ∨ (∃ path, u.task = .opening path) ∧ (u.phase = .openPort ∨ u.phase.inHandshake) ∨
    (∃ e, u.task = .releasing e) ∧ u.phase = .closePort)

/-- CLOSE of s runs in u, or has ended there. -/
def CloseRuns (s u : State) : Prop :=
  (sameInputs s u ∧ u.opResult = s.opResult) ∧ (u.task = .idle ∨ u.task = .closing ∧ u.phase = .closePort)

/-- The command c of s runs in u, or has ended there. -/
def CommandRuns (c : HostCmd) (s u : State) : Prop :=
  match c with
  | .openCmd _ => OpenRuns s u
  | .getMeasurements => SweepRuns s u
  | .writeValue _ _ => WriteRuns s u
  | .closeCmd => CloseRuns s u

section
variable {s u : State}

/-! GET_MEASUREMENTS. -/

theorem sweepRuns_finishCmd (r : Result) (h : u.besideSweep = s.besideSweep) : SweepRuns s (finishCmd r u) :=
  ⟨h, .inl rfl⟩

theorem sweepRuns_raise (e : Fail) (h : u.besideSweep = s.besideSweep) (ht : u.task = .sweeping) :
    SweepRuns s (raise e u) := by
  have hraise : raise e u = finishCmd (.err (errSensorRead u.sweepName e)) { u with sweepMap := [] } := by
    simp only [raise, ht]
  rw [hraise]
  exact sweepRuns_finishCmd _ (by exact h)

theorem sweepRuns_sweepEntry (i : Nat) (h : u.besideSweep = s.besideSweep) (ht : u.task = .sweeping) :
    SweepRuns s (sweepEntry i u) := by
  unfold sweepEntry
  split
  · exact sweepRuns_finishCmd _ (by exact h)
  · unfold startRead
    split
    · exact sweepRuns_raise _ (by exact h) ht
    · exact ⟨h, .inr ⟨ht, rfl, .inl (by simp [State.stepsLeft, startTransaction])⟩⟩

theorem task_of_access (h : u.access = s.access) : u.task = s.task := congrArg (·.1.1) h

theorem reqKind_of_access (h : u.access = s.access) : u.reqKind = s.reqKind := by
  simp only [State.access, State.untilLineEnds, State.request, Prod.mk.injEq] at h
  obtain ⟨⟨-, -, -, hkind, -⟩, -⟩ := h
  exact hkind

theorem besideSweep_of_access (h : u.access = s.access) : u.besideSweep = s.besideSweep := by
  simp only [State.access, State.untilLineEnds, State.besideLine, State.request, Prod.mk.injEq] at h
  simp only [State.besideSweep, h]

theorem SweepRuns.advance (h : SweepRuns s u) (hrun : u.task ≠ .idle) : SweepRuns s (advance u) := by
  obtain ⟨hbeside, hidle | ⟨ht, hk, hleft | hp⟩⟩ := h
  · exact absurd hidle hrun
  · have hmove := advance_accessMove (.inr (.inr (.inl ht))) hleft
    generalize Machine.advance u = t at hmove
    cases hmove with
    | goesOn hu hleft' =>
      exact ⟨(besideSweep_of_access hu).trans hbeside,
        .inr ⟨(task_of_access hu).trans ht, (reqKind_of_access hu).trans hk, .inl hleft'⟩⟩
    | raised e hu =>
      exact sweepRuns_raise e ((besideSweep_of_access hu).trans hbeside) ((task_of_access hu).trans ht)
    | @read v p hu hk' =>
      have htask := (task_of_access hu).trans ht
      have hread : readReturn p v = { v with phase := .decode, rsp := some p } := by
        simp only [readReturn, htask]
      rw [hread]
      exact ⟨(besideSweep_of_access hu).trans hbeside, .inr ⟨htask, hk', .inr rfl⟩⟩
    | wrote hu hk' => exact absurd (hk'.symm.trans ((reqKind_of_access hu).trans hk)) nofun
  · rw [advance_decode u hrun hp]
    unfold decodeStep
    split
    · exact sweepRuns_sweepEntry _ (by exact hbeside) ht
    · exact sweepRuns_finishCmd _ (by exact hbeside)

theorem sweepRuns_acceptSweep : SweepRuns s (acceptSweep s) := by
  unfold acceptSweep
  split
  · exact sweepRuns_finishCmd _ rfl
  · exact sweepRuns_sweepEntry 0 rfl rfl

/-! WRITE_VALUE. -/

theorem writeRuns_finishCmd (r : Result) (h : u.besideWrite = s.besideWrite) : WriteRuns s (finishCmd r u) :=
  ⟨h, .inl rfl⟩

theorem besideWrite_of_access (h : u.access = s.access) : u.besideWrite = s.besideWrite := by
  simp only [State.access, State.untilLineEnds, State.besideLine, Prod.mk.injEq] at h
  simp only [State.besideWrite, h]

theorem WriteRuns.advance (h : WriteRuns s u) (hrun : u.task ≠ .idle) : WriteRuns s (advance u) := by
  obtain ⟨hbeside, hidle | ⟨ht, hk, hleft⟩⟩ := h
  · exact absurd hidle hrun
  · have hmove := advance_accessMove (.inr (.inr (.inr ht))) hleft
    generalize Machine.advance u = t at hmove
    cases hmove with
    | goesOn hu hleft' =>
      exact ⟨(besideWrite_of_access hu).trans hbeside,
        .inr ⟨(task_of_access hu).trans ht, (reqKind_of_access hu).trans hk, hleft'⟩⟩
    | raised e hu =>
      rw [raise_writing e ((task_of_access hu).trans ht)]
      exact writeRuns_finishCmd _ ((besideWrite_of_access hu).trans hbeside)
    | read p hu hk' => exact absurd (hk'.symm.trans ((reqKind_of_access hu).trans hk)) nofun
    | @wrote v hu _ =>
      have hwrote : writeReturn v = finishCmd (.ok .unit) v := by
        simp only [writeReturn, (task_of_access hu).trans ht]
      rw [hwrote]
      exact writeRuns_finishCmd _ ((besideWrite_of_access hu).trans hbeside)

theorem writeRuns_acceptWrite {name : String} {v : HostNum} : WriteRuns s (acceptWrite name v s) := by
  unfold acceptWrite
  split
  · exact writeRuns_finishCmd _ rfl
  · split
    · exact writeRuns_finishCmd _ rfl
    · split
      · split
        · exact writeRuns_finishCmd _ rfl
        · exact ⟨rfl, .inr ⟨rfl, rfl, by simp [State.stepsLeft, startWrite, startTransaction]⟩⟩
      · exact writeRuns_finishCmd _ rfl

/-! OPEN. -/

theorem openRuns_finishCmd (r : Result) (h : u.besideOpen = s.besideOpen) : OpenRuns s (finishCmd r u) :=
  ⟨h, .inl rfl⟩

variable {path : String}

theorem openRuns_raise (e : Fail) (h : u.besideOpen = s.besideOpen) (ht : u.task = .opening path) :
    OpenRuns s (raise e u) := by
  rw [raise_opening e ht]
  exact ⟨h, .inr (.inr ⟨⟨e, rfl⟩, rfl⟩)⟩

theorem openRuns_goesOn (p : Phase) (h : u.besideOpen = s.besideOpen) (ht : u.task = .opening path)
    (hp : p.inHandshake) : OpenRuns s { u with phase := p } :=
  ⟨h, .inr (.inl ⟨⟨path, ht⟩, .inr hp⟩)⟩

theorem openRuns_wakeHead (h : u.besideOpen = s.besideOpen) (ht : u.task = .opening path) :
    OpenRuns s (wakeHead u) := by
  unfold wakeHead
  split
  · exact openRuns_raise _ h ht
  · exact openRuns_goesOn .hsWakeTx h ht (.inl rfl)

theorem openRuns_openPortStep (h : u.besideOpen = s.besideOpen) (ht : u.task = .opening path) :
    OpenRuns s (openPortStep u) := by
  simp only [openPortStep, ht]
  split
  · exact openRuns_wakeHead (by exact h) ht
  · exact openRuns_finishCmd _ (by exact h)

theorem openRuns_wakeSend (h : u.besideOpen = s.besideOpen) (ht : u.task = .opening path) :
    OpenRuns s (wakeSend u) := by
  unfold wakeSend
  split
  · exact openRuns_raise _ h ht
  · exact openRuns_goesOn (u := { txWrite [Config.wakeByte] u with wakeCount := u.wakeCount + 1 }) .hsWakeRx
      (by exact h) ht (.inr (.inl rfl))

theorem OpenRuns.advance (h : OpenRuns s u) (hrun : u.task ≠ .idle) : OpenRuns s (advance u) := by
  obtain ⟨hb, hidle | ⟨⟨path, ht⟩, hp | hp | hp | hp | hp⟩ | ⟨⟨e, ht⟩, hp⟩⟩ := h
  · exact absurd hidle hrun
  · rw [advance_openPort u hrun hp]
    exact openRuns_openPortStep hb ht
  · rw [advance_hsWakeTx u hrun hp]
    exact openRuns_wakeSend hb ht
  · rw [advance_hsWakeRx u hrun hp]
    split
    · exact openRuns_goesOn (u := { rxRead 1 u with wakeLast := some Config.wakeAckByte }) .hsSyncTx
        (by exact hb) ht (.inr (.inr (.inl rfl)))
    · exact openRuns_wakeHead (by exact hb) ht
  · rw [advance_hsSyncTx u hrun hp]
    exact openRuns_goesOn (u := txWrite Config.syncCmd u) .hsSyncRx (by exact hb) ht (.inr (.inr (.inr rfl)))
  · rw [advance_hsSyncRx u hrun hp]
    split
    · rw [syncAcked_opening (by exact ht)]
      exact openRuns_finishCmd _ (by exact hb)
    · exact openRuns_raise _ (by exact hb) ht
  · rw [advance_closePort u hrun hp]
    simp only [closePortStep, ht]
    exact openRuns_finishCmd _ (by exact hb)

theorem openRuns_acceptOpen : OpenRuns s (acceptOpen path s) := by
  unfold acceptOpen
  split
  · exact openRuns_finishCmd _ rfl
  · exact ⟨rfl, .inr (.inl ⟨⟨path, rfl⟩, .inl rfl⟩)⟩

/-! CLOSE. -/

theorem closeRuns_finishCmd (r : Result) (h : sameInputs s u ∧ u.opResult = s.opResult) :
    CloseRuns s (finishCmd r u) := ⟨h, .inl rfl⟩

theorem CloseRuns.advance (h : CloseRuns s u) (hrun : u.task ≠ .idle) : CloseRuns s (advance u) := by
  obtain ⟨hinputs, hidle | ⟨ht, hp⟩⟩ := h
  · exact absurd hidle hrun
  · rw [advance_closePort u hrun hp]
    simp only [closePortStep, ht]
    exact closeRuns_finishCmd _ (by exact hinputs)

theorem closeRuns_acceptClose : CloseRuns s (acceptClose s) := by
  unfold acceptClose
  split
  · exact closeRuns_finishCmd _ ⟨⟨rfl, rfl, rfl⟩, rfl⟩
  · exact ⟨⟨⟨rfl, rfl, rfl⟩, rfl⟩, .inr ⟨rfl, rfl⟩⟩

variable {c : HostCmd}

/-! Every command: accepted, it runs or has ended, and so it stays. -/

theorem CommandRuns.endStep (h : CommandRuns c s u) : CommandRuns c s (endStep u) := by
  cases c with
  | openCmd path => simpa [CommandRuns, OpenRuns, State.besideOpen] using h
  | getMeasurements => simpa [CommandRuns, SweepRuns, State.besideSweep] using h
  | writeValue name v => simpa [CommandRuns, WriteRuns, State.besideWrite] using h
  | closeCmd => simpa [CommandRuns, CloseRuns, sameInputs] using h

theorem CommandRuns.tick (hrun : u.task ≠ .idle) (h : CommandRuns c s u) : CommandRuns c s (tick u) := by
  refine CommandRuns.endStep ?_
  cases c with
  | openCmd path => exact OpenRuns.advance h hrun
  | getMeasurements => exact SweepRuns.advance h hrun
  | writeValue name v => exact WriteRuns.advance h hrun
  | closeCmd => exact CloseRuns.advance h hrun

theorem commandRuns_acceptCmd (c : HostCmd) (s : State) : CommandRuns c s (acceptCmd c s) := by
  cases c with
  | openCmd path => exact openRuns_acceptOpen
  | getMeasurements => exact sweepRuns_acceptSweep
  | writeValue name v => exact writeRuns_acceptWrite
  | closeCmd => exact closeRuns_acceptClose

theorem commandRuns_runCmd (c : HostCmd) (s : State) : CommandRuns c s (runCmd c s) :=
  drive_keeps_running (CommandRuns c s) (fun _ hrun h => h.tick hrun) _ _ (commandRuns_acceptCmd c s).endStep

theorem CommandRuns.same (h : CommandRuns c s u) : sameInputs s u ∧ u.opResult = s.opResult := by
  cases c with
  | openCmd path =>
    obtain ⟨hb, -⟩ := h
    simp only [State.besideOpen, Prod.mk.injEq] at hb
    simp [sameInputs, hb]
  | getMeasurements =>
    obtain ⟨hb, -⟩ := h
    simp only [State.besideSweep, Prod.mk.injEq] at hb
    simp [sameInputs, hb]
  | writeValue name v =>
    obtain ⟨hb, -⟩ := h
    simp only [State.besideWrite, Prod.mk.injEq] at hb
    simp [sameInputs, hb]
  | closeCmd => exact h.1

end

theorem CommandRuns.resetIn {c : HostCmd} {s u : State} (h : CommandRuns c s u) : u.resetIn = s.resetIn := by
  obtain ⟨⟨-, -, hreset⟩, -⟩ := h.same
  exact hreset

/-- Settles O53: a command runs in its own registers, from its acceptance to its end. -/
theorem commandFrames : Obligations.CommandFrames := by
  intro s t c hexec
  have hp : s.phase = .idle := by
    by_contra hp
    have hbusy : s.busy = true := by simpa [State.busy] using hp
    rw [busyCommandHasNoMove s c hbusy] at hexec
    cases hexec
  rw [exec_cmd s c hp] at hexec
  obtain rfl := Host.Outcome.next.inj hexec
  have hruns := commandRuns_runCmd c s
  obtain ⟨hinputs, hres⟩ := hruns.same
  refine ⟨hinputs, hres, ?_, ?_, ?_⟩
  · rintro rfl
    obtain ⟨hb, -⟩ := hruns
    simp only [State.besideSweep, Prod.mk.injEq] at hb
    simp [sameLink, sameHandshake, hb]
  · rintro name v rfl
    obtain ⟨hb, -⟩ := hruns
    simp only [State.besideWrite, Prod.mk.injEq] at hb
    simp [sameLink, sameHandshake, sameSweep, hb]
  · rintro path rfl
    obtain ⟨hb, -⟩ := hruns
    simp only [State.besideOpen, Prod.mk.injEq] at hb
    simp [sameTransmit, sameResponse, sameRequest, sameSweep, hb]

/-! ### A host command walked step by step (R13, R103) -/

/-- A step of the core with no reset coming, then the others. -/
theorem run_succ (k : Nat) {u : State} (h : u.resetIn = []) :
    Sys2Proof.core.run (k + 1) u = Sys2Proof.core.run k (tick u) := by
  have hstep : Sys2Proof.core.step u = .next (tick u) := step_eq_tick u h
  simp only [Host.Core.run, hstep]

/-- With no reset coming, a driven operation is a run of the core. -/
theorem exists_run_eq_drive {P : State → Prop} (hreset : ∀ u, P u → u.resetIn = [])
    (hkeeps : ∀ u, u.task ≠ .idle → P u → P (tick u)) (n : Nat) {u : State} (h : P u) :
    ∃ k, Sys2Proof.core.run k u = .next (drive n u) := by
  induction n generalizing u with
  | zero => exact ⟨0, rfl⟩
  | succ n ih =>
    by_cases hidle : u.task = .idle
    · rw [drive_done _ _ hidle]
      exact ⟨0, rfl⟩
    · obtain ⟨k, hk⟩ := ih (hkeeps u hidle h)
      rw [drive_more n u hidle]
      exact ⟨k + 1, (run_succ k (hreset u h)).trans hk⟩

/-- Settles O8: the first step accepts the command, and each later one is a step of the driven operation. -/
theorem commandRunsStepByStep : Obligations.CommandRunsStepByStep := by
  intro s c hp hreset
  obtain ⟨k, hk⟩ := exists_run_eq_drive (P := CommandRuns c s) (fun u h => h.resetIn.trans hreset)
    (fun _ hrun h => h.tick hrun) s.opFuel (commandRuns_acceptCmd c s).endStep
  have haccept : tick { s with hostq := c :: s.hostq } = endStep (acceptCmd c s) :=
    congrArg endStep (advance_idle _ (by exact hp))
  exact ⟨_, k + 1, exec_cmd s c hp, (run_succ k (by exact hreset)).trans (haccept ▸ hk)⟩

end Sys2Proof.Machine
end

section
namespace Sys2Proof.Machine

/-! ### Exceptions: error entry at the top level and the error register's code (R112, R114 to R116) -/

/-- Settles O22: the two ends that an error gives a host command, with `NAK` noted in `ack_byte` before. -/
theorem errorEndsCommand : Obligations.ErrorEndsCommand := by
  rintro s e rfl
  refine ⟨fun ht => congrArg _ (raise_writing (s := { s with ackByte := 0x15 }) failNak ht), ?_⟩
  rintro d w ht hd rfl
  exact congrArg _ (raise_sweeping (s := { s with ackByte := 0x15 }) failNak ht hd)

section
variable {s : State}

/-- With no error the register's code is 0x00 (R25). -/
theorem State.errCode_of_none (h : s.err = none) : s.errCode = 0x00 := by
  simp only [State.errCode, h]

/-- The register's code is the one of its error's kind (R25, R112). -/
theorem State.errCode_of_some {e : Err} (h : s.err = some e) : s.errCode = e.fail.kind.code := by
  simp only [State.errCode, h]

end

/-- Settles O54: the register shows its kind's code, and each kind stands in the table with it. -/
theorem errorCodeTable : Obligations.ErrorCodeTable := by
  refine ⟨fun s => State.errCode_of_none, fun s e h => ?_⟩
  rw [State.errCode_of_some h]
  cases e.fail.kind <;> decide

end Sys2Proof.Machine
end

section
namespace Sys2Proof.Machine

/-! ### The reset input, and the block waiting in `IDLE` (R110, R127, R128) -/

section
variable {s : State}

/-- A reset that is due comes before the sequencer's step (R128). -/
theorem step_reset_due {rest : List Nat} (h : s.resetIn = 0 :: rest) : step s = .next (applyReset s) := by
  simp only [step, h]

/-- One that is not comes a step nearer. -/
theorem step_reset_nearer {k : Nat} {rest : List Nat} (h : s.resetIn = (k + 1) :: rest) :
    step s = withPeer (sequencerStep { s with resetIn := k :: rest }) := by
  simp only [step, h]

/-- Releasing the port sends nothing: the line's transmit log stays (R30, R128). -/
theorem applyReset_txLog (s : State) : (applyReset s).txLog = s.txLog := by
  cases hp : s.portHeld <;> simp [State.txLog, applyReset, hp, Event.sent]

/-- With no command to take, `IDLE` waits (R110). -/
theorem advance_waits (hp : s.phase = .idle) (hq : s.hostq = []) : advance s = s := by
  simp only [advance_idle s hp, idleStep, hq]

/-- With no reset coming either, a step is the peer's alone (R34). -/
theorem step_waits (hp : s.phase = .idle) (hq : s.hostq = []) (hr : s.resetIn = []) :
    step s = .next (endStep s) := by
  rw [step_eq_tick s hr, tick, advance_waits hp hq]

end

/-- Settles O6: the branch of the step by the schedule's head, and the reset state's registers. -/
theorem resetInputAbandons : Obligations.ResetInputAbandons := by
  refine fun s => ⟨fun rest h => ⟨applyReset s, step_reset_due h, ?_⟩, fun k rest => step_reset_nearer⟩
  have hnext : (applyReset s).resetIn = rest := congrArg List.tail h
  exact ⟨rfl, rfl, rfl, rfl, rfl, rfl, rfl, rfl, rfl, rfl, rfl, rfl, hnext, rfl, applyReset_txLog s⟩

/-- Settles O7: the reset values as they stand, and the wait in `IDLE`, which the reset state is in too. -/
theorem resetLeaves : Obligations.ResetLeaves :=
  ⟨rfl, rfl, rfl, rfl, rfl, rfl, rfl, rfl, rfl, rfl, rfl, rfl, step_waits rfl rfl rfl, fun _ => step_waits⟩

end Sys2Proof.Machine
end

section
namespace Sys2Proof.Machine

/-! ### The interactions of a step, by its phase (R14, R45) -/

/-- An interaction without its data: which of the five it is. -/
def Event.shape : Event → Event
  | .tx _ _ => .tx [] 0
  | .rx _ _ => .rx 0 []
  | .flush => .flush
  | .portOpen _ _ => .portOpen "" false
  | .portClose => .portClose

/-- The interaction a step in a phase may make, if any (R14). -/
def Phase.interaction : Phase → List Event
  | .openPort => [.portOpen "" false]
  | .hsWakeTx | .hsSyncTx | .txFrame => [.tx [] 0]
  | .hsWakeRx | .hsSyncRx | .rxAck | .rxStart | .rxLen | .rxBody => [.rx 0 []]
  | .txFlush => [.flush]
  | .closePort => [.portClose]
  | .idle | .check | .decode => []

/-- From s to t the trace has grown by interactions of the shapes l at most, in this order. -/
def Interacts (l : List Event) (s t : State) : Prop :=
  ∃ new, t.trace = s.trace ++ new ∧ (new.map Event.shape).Sublist l

section
variable {l m : List Event} {s t u : State}

theorem Interacts.none (h : t.trace = s.trace) : Interacts l s t :=
  ⟨[], by rw [h, List.append_nil], List.nil_sublist l⟩

theorem Interacts.one {e : Event} (h : t.trace = s.trace ++ [e]) : Interacts [e.shape] s t :=
  ⟨[e], h, List.Sublist.refl _⟩

theorem Interacts.trans (h : Interacts l s u) (k : Interacts m u t) : Interacts (l ++ m) s t := by
  obtain ⟨new, hnew, hl⟩ := h
  obtain ⟨rest, hrest, hm⟩ := k
  exact ⟨new ++ rest, by rw [hrest, hnew, List.append_assoc], by simpa using hl.append hm⟩

theorem Interacts.mono (h : Interacts l s t) (hlm : l.Sublist m) : Interacts m s t := by
  obtain ⟨new, hnew, hl⟩ := h
  exact ⟨new, hnew, hl.trans hlm⟩

/-- What the peer appends at the end of a step is no interaction (R34). -/
theorem Interacts.endStep (h : Interacts l s t) : Interacts l s (endStep t) := by
  simpa [Interacts] using h

/-! What each piece of a step's work adds to the trace. -/

theorem wakeHead_trace (s : State) : (wakeHead s).trace = s.trace := by
  unfold wakeHead
  split
  · exact raise_trace _ _
  · rfl

theorem ackMissed_trace (r : List Byte) (s : State) : (ackMissed r s).trace = s.trace := by
  unfold ackMissed
  split
  · exact raise_trace _ _
  · exact raise_trace _ _

theorem startStep_trace (s : State) : (startStep s).trace = (rxRead 1 s).trace := by
  unfold startStep
  split
  · exact raise_trace _ _
  · split
    · exact raise_trace _ _
    · rfl

theorem lenStep_trace (s : State) : (lenStep s).trace = (rxRead 1 s).trace := by
  unfold lenStep
  split
  · exact raise_trace _ _
  · rfl

theorem bodyStep_trace (s : State) : (bodyStep s).trace = (rxRead (s.declaredSize.toNat + 1) s).trace := by
  unfold bodyStep
  dsimp only
  split
  · exact raise_trace _ _
  · rfl

theorem flushStep_trace (s : State) : (flushStep s).trace = s.trace ++ [.flush] := by
  unfold flushStep
  dsimp only
  split
  · exact raise_trace _ _
  · rw [buildFrame_eq]
    rfl

theorem transmit_trace (s : State) : (transmit s).trace = s.trace ++ [.tx s.txbuf (s.accepted s.txbuf)] := by
  unfold transmit
  dsimp only
  split
  · exact raise_trace _ _
  · rfl

theorem echoCheck_trace (p : List Byte) (s : State) : (echoCheck p s).trace = s.trace := by
  unfold echoCheck
  split
  · split
    · exact raise_trace _ _
    · unfold readReturn
      split <;> rfl
  · split
    · exact raise_trace _ _
    · unfold writeReturn
      split <;> rfl

theorem startRead_trace (addr : Addr) (size : Int) (s : State) : (startRead addr size s).trace = s.trace := by
  unfold startRead
  split
  · exact raise_trace _ _
  · rfl

theorem sweepEntry_trace (i : Nat) (s : State) : (sweepEntry i s).trace = s.trace := by
  unfold sweepEntry
  split
  · rfl
  · exact startRead_trace _ _ _

theorem decodeStep_trace (s : State) : (decodeStep s).trace = s.trace := by
  unfold decodeStep
  split
  · exact sweepEntry_trace _ _
  · rfl

/-- Accepting a command is a computation (R103). -/
theorem acceptCmd_trace (c : HostCmd) (s : State) : (acceptCmd c s).trace = s.trace := by
  cases c with
  | openCmd path =>
    simp only [acceptCmd, acceptOpen]
    split <;> rfl
  | getMeasurements =>
    simp only [acceptCmd, acceptSweep]
    split
    · rfl
    · exact sweepEntry_trace _ _
  | writeValue name v =>
    simp only [acceptCmd, acceptWrite]
    split
    · rfl
    · split
      · rfl
      · split
        · split <;> rfl
        · rfl
  | closeCmd =>
    simp only [acceptCmd, acceptClose]
    split <;> rfl

theorem wakeSend_interacts (s : State) : Interacts [.tx [] 0] s (wakeSend s) := by
  unfold wakeSend
  split
  · exact .none (raise_trace _ _)
  · exact .one (e := .tx _ _) rfl

theorem openPortStep_interacts (s : State) : Interacts [.portOpen "" false] s (openPortStep s) := by
  unfold openPortStep
  split
  · split
    · exact .one (e := .portOpen _ _) (wakeHead_trace _)
    · exact .one (e := .portOpen _ _) rfl
  · exact .none rfl

/-- The frame of a payload is transmitted in one interaction, or refused before any (R74, R82). -/
theorem sendFrame_interacts (p : List Byte) (s : State) : Interacts [.tx [] 0] s (sendFrame p s) := by
  unfold sendFrame
  split
  · exact .none (raise_trace _ _)
  · rw [buildFrame_eq]
    exact .one (e := .tx _ _) (transmit_trace _)

theorem closePortStep_trace (s : State) : (closePortStep s).trace = s.trace ++ [.portClose] := by
  unfold closePortStep
  split <;> rfl

/-- A step of a running operation makes its phase's interaction, or none. -/
theorem advance_interacts (ht : s.task ≠ .idle) : Interacts s.phase.interaction s (advance s) := by
  have hread {n : Nat} {t : State} (h : t.trace = (rxRead n s).trace) : Interacts [.rx 0 []] s t :=
    .one (e := .rx _ _) h
  cases hp : s.phase with
  | idle =>
    rw [advance_idle s hp]
    unfold idleStep
    split
    · exact .none rfl
    · exact .none (acceptCmd_trace _ _)
  | openPort => rw [advance_openPort s ht hp]; exact openPortStep_interacts s
  | hsWakeTx => rw [advance_hsWakeTx s ht hp]; exact wakeSend_interacts s
  | hsWakeRx =>
    rw [advance_hsWakeRx s ht hp]
    split
    · exact hread rfl
    · exact hread (wakeHead_trace _)
  | hsSyncTx => rw [advance_hsSyncTx s ht hp]; exact .one (e := .tx _ _) rfl
  | hsSyncRx =>
    rw [advance_hsSyncRx s ht hp]
    split
    · unfold syncAcked
      split <;> exact hread rfl
    · exact hread (raise_trace _ _)
  | txFlush => rw [advance_txFlush s ht hp]; exact .one (flushStep_trace s)
  | txFrame =>
    by_cases hf : ∃ p, p.length ≤ 100 ∧ s.txbuf = frameOf p
    · obtain ⟨p, hl, hb⟩ := hf
      rw [advance_txFrame s p ht hp hl hb]
      exact sendFrame_interacts p s
    · rw [advance_txFrame_raw s ht hp fun p hl hb => hf ⟨p, hl, hb⟩]
      exact .one (transmit_trace s)
  | rxAck =>
    rw [advance_rxAck s ht hp]
    split
    · exact hread rfl
    · split
      · exact hread (raise_trace _ _)
      · exact hread (ackMissed_trace _ _)
  | rxStart => rw [advance_rxStart s ht hp]; exact hread (startStep_trace s)
  | rxLen => rw [advance_rxLen s ht hp]; exact hread (lenStep_trace s)
  | rxBody => rw [advance_rxBody s ht hp]; exact hread (bodyStep_trace s)
  | check =>
    cases hr : s.rsp with
    | none => rw [advance_check s ht hp hr]; exact .none (checkFrame_trace s)
    | some p => rw [advance_echo s p ht hp hr]; exact .none (echoCheck_trace p s)
  | decode => rw [advance_decode s ht hp]; exact .none (decodeStep_trace s)
  | closePort => rw [advance_closePort s ht hp]; exact .one (closePortStep_trace s)

end

/-- Interactions counted by what their shape says are bounded by the shapes' count. -/
theorem countP_le_of_shape {p : Event → Bool} {new l : List Event} (hp : ∀ e, p e.shape = p e)
    (h : (new.map Event.shape).Sublist l) : new.countP p ≤ l.countP p := by
  calc new.countP p = (new.map Event.shape).countP p := by simp [List.countP_map, Function.comp_def, hp]
    _ ≤ l.countP p := h.countP_le

end Sys2Proof.Machine
end

section
namespace Sys2Proof.Machine

/-! ### The course of a host command: the phases still to come (R14, R135) -/

/-- The handshake with k wake attempts left, and the release of the port if it fails (R68, R69, R104). -/
def handshakePhases : Nat → List Phase
  | 0 => [.hsSyncTx, .hsSyncRx, .closePort]
  | k + 1 => .hsWakeTx :: .hsWakeRx :: handshakePhases k

/-- A transaction and the echo check of its reply (R82, R84, R86); `CHECK` takes two steps (log 6). -/
def transactionPhases : List Phase := [.txFlush, .txFrame, .rxAck, .rxStart, .rxLen, .rxBody, .check, .check]

/-- The last k entries of a sweep (R105). -/
def entryPhases (k : Nat) : List Phase := (List.replicate k (transactionPhases ++ [.decode])).flatten

/-- A sweep's entries behind the present one. -/
def State.entriesLeft (s : State) : Nat := s.registry.length - (s.sweepIdx + 1)

/-- What follows a register access: under a sweep the decoding and the entries left, else nothing. -/
def State.afterAccess (s : State) : List Phase :=
  match s.task with
  | .sweeping => .decode :: entryPhases s.entriesLeft
  | _ => []

/-- The phases that a running host command has still to go through at most, the present one first. -/
def State.course (s : State) : List Phase :=
  match s.phase with
  | .idle => []
  | .openPort => .openPort :: handshakePhases 10
  | .hsWakeTx => .hsWakeTx :: .hsWakeRx :: handshakePhases (9 - s.wakeCount)
  | .hsWakeRx => .hsWakeRx :: handshakePhases (10 - s.wakeCount)
  | .hsSyncTx => [.hsSyncTx, .hsSyncRx, .closePort]
  | .hsSyncRx => [.hsSyncRx, .closePort]
  | .closePort => [.closePort]
  | .decode => .decode :: entryPhases s.entriesLeft
  | .txFlush | .txFrame | .rxAck | .rxStart | .rxLen | .rxBody | .check =>
    transactionPhases.drop (8 - s.stepsLeft) ++ s.afterAccess

/-- The course of a command with a registry of n entries. -/
def HostCmd.course (n : Nat) : HostCmd → List Phase
  | .openCmd _ => .openPort :: handshakePhases 10
  | .getMeasurements => entryPhases n
  | .writeValue _ _ => transactionPhases
  | .closeCmd => [.closePort]

/-- A host command has ended at `IDLE`, with its result (R115, R116). -/
def State.completed (s : State) : Prop := s.phase = .idle ∧ ∃ r, s.lastResult = some r ∧ s.err = r.errOf

/-- In t a host command has at most the phases l before it, or it has ended and is completed. -/
structure KeepsTo (l : List Phase) (t : State) : Prop where
  course : t.course.Sublist l
  ended : t.task = .idle → t.completed

section
variable {s u t : State} {l m : List Phase}

@[simp] theorem endStep_course (s : State) : (endStep s).course = s.course := by
  simp [State.course, State.afterAccess, State.entriesLeft]

theorem KeepsTo.endStep (h : KeepsTo l t) : KeepsTo l (endStep t) :=
  ⟨by simpa using h.course, by simpa [State.completed] using h.ended⟩

theorem KeepsTo.mono (h : KeepsTo l t) (hlm : l.Sublist m) : KeepsTo m t := ⟨h.course.trans hlm, h.ended⟩

theorem keepsTo_finishCmd (l : List Phase) (r : Result) (s : State) : KeepsTo l (finishCmd r s) :=
  ⟨List.nil_sublist l, fun _ => ⟨rfl, r, rfl, rfl⟩⟩

/-! OPEN (R104). -/

theorem sync_sublist_handshake (k : Nat) :
    [Phase.hsSyncTx, .hsSyncRx, .closePort].Sublist (handshakePhases k) := by
  induction k with
  | zero => exact .refl _
  | succ k ih => exact (ih.cons _).cons _

theorem closePort_sublist_handshake (k : Nat) : [Phase.closePort].Sublist (handshakePhases k) :=
  List.Sublist.trans (by decide) (sync_sublist_handshake k)

variable {path : String}

theorem keepsTo_raise_opening (e : Fail) (ht : u.task = .opening path) (hl : [Phase.closePort].Sublist l) :
    KeepsTo l (raise e u) := by
  rw [raise_opening e ht]
  exact ⟨hl, nofun⟩

/-- The wake loop's head: the attempts left, and what follows them (R68). -/
theorem keepsTo_wakeHead (ht : u.task = .opening path) :
    KeepsTo (handshakePhases (10 - u.wakeCount)) (wakeHead u) := by
  by_cases hk : u.wakeCount < 10
  · rw [wakeHead_of_lt hk, show 10 - u.wakeCount = 9 - u.wakeCount + 1 by omega]
    exact ⟨.refl _, by simp [ht]⟩
  · rw [wakeHead_of_le (Nat.not_lt.1 hk)]
    exact keepsTo_raise_opening _ ht (closePort_sublist_handshake _)

theorem keepsTo_wakeSend (ht : u.task = .opening path) :
    KeepsTo (.hsWakeRx :: handshakePhases (9 - u.wakeCount)) (wakeSend u) := by
  by_cases hk : u.wakeCount < 10
  · rw [wakeSend_of_lt hk]
    exact ⟨by simp [State.course], by simp [ht]⟩
  · rw [wakeSend_of_le (Nat.not_lt.1 hk)]
    exact keepsTo_raise_opening _ ht ((closePort_sublist_handshake _).cons _)

theorem keepsTo_openPortStep (ht : u.task = .opening path) : KeepsTo (handshakePhases 10) (openPortStep u) := by
  simp only [openPortStep, ht]
  split
  · exact keepsTo_wakeHead (u := { portGrant path u with wakeCount := 0, wakeLast := none }) ht
  · exact keepsTo_finishCmd _ _ _

/-- A step of OPEN leaves its phase behind. -/
theorem OpenRuns.stepsOn (h : OpenRuns s u) (hrun : u.task ≠ .idle) :
    ∃ l, u.course = u.phase :: l ∧ KeepsTo l (Machine.advance u) := by
  obtain ⟨-, hidle | ⟨⟨path, ht⟩, hp | hp | hp | hp | hp⟩ | ⟨⟨e, ht⟩, hp⟩⟩ := h
  · exact absurd hidle hrun
  · rw [advance_openPort u hrun hp]
    exact ⟨_, by simp only [State.course, hp], keepsTo_openPortStep ht⟩
  · rw [advance_hsWakeTx u hrun hp]
    exact ⟨_, by simp only [State.course, hp], keepsTo_wakeSend ht⟩
  · rw [advance_hsWakeRx u hrun hp]
    refine ⟨handshakePhases (10 - u.wakeCount), by simp only [State.course, hp], ?_⟩
    split
    · exact ⟨sync_sublist_handshake _, by simp [wakeAcked, ht]⟩
    · exact keepsTo_wakeHead (u := { rxRead 1 u with wakeLast := _ }) ht
  · rw [advance_hsSyncTx u hrun hp]
    exact ⟨[.hsSyncRx, .closePort], by simp only [State.course, hp], .refl _, by simp [syncSend, ht]⟩
  · rw [advance_hsSyncRx u hrun hp]
    refine ⟨[.closePort], by simp only [State.course, hp], ?_⟩
    split
    · rw [syncAcked_opening (by exact ht)]
      exact keepsTo_finishCmd _ _ _
    · exact keepsTo_raise_opening _ (by exact ht) (.refl _)
  · rw [advance_closePort u hrun hp]
    simp only [closePortStep, ht]
    exact ⟨[], by simp only [State.course, hp], keepsTo_finishCmd _ _ _⟩

/-! CLOSE (R108). -/

theorem CloseRuns.stepsOn (h : CloseRuns s u) (hrun : u.task ≠ .idle) :
    ∃ l, u.course = u.phase :: l ∧ KeepsTo l (Machine.advance u) := by
  obtain ⟨-, hidle | ⟨ht, hp⟩⟩ := h
  · exact absurd hidle hrun
  · rw [advance_closePort u hrun hp]
    simp only [closePortStep, ht]
    exact ⟨[], by simp only [State.course, hp], keepsTo_finishCmd _ _ _⟩

/-! The register access of GET_MEASUREMENTS and WRITE_VALUE (R82 to R87). -/

/-- In an access the course is its last phases, and what follows it. -/
theorem course_of_access (hk : 0 < u.stepsLeft) :
    u.course = transactionPhases.drop (8 - u.stepsLeft) ++ u.afterAccess := by
  cases hp : u.phase with
  | idle | openPort | hsWakeTx | hsWakeRx | hsSyncTx | hsSyncRx | decode | closePort =>
    simp [State.stepsLeft, hp] at hk
  | _ => simp only [State.course, hp]

theorem course_of_access_cons (hk : 0 < u.stepsLeft) :
    u.course = u.phase :: (transactionPhases.drop (9 - u.stepsLeft) ++ u.afterAccess) := by
  rw [course_of_access hk]
  cases hp : u.phase with
  | idle | openPort | hsWakeTx | hsWakeRx | hsSyncTx | hsSyncRx | decode | closePort =>
    simp [State.stepsLeft, hp] at hk
  | check => cases hr : u.rsp <;> simp [State.stepsLeft, transactionPhases, hp, hr]
  | _ => simp [State.stepsLeft, transactionPhases, hp]

/-- One step of an access, beside itself: it takes one of its steps. -/
theorem advance_accessStep (ht : AccessTask u.task) (hk : 0 < u.stepsLeft) :
    AccessStep u u u.stepsLeft (Machine.advance u) (Machine.advance u) := by
  have hrun := ht.runs
  have hself (k : Nat) : Abreast k u u u u := abreast_self k rfl rfl
  by_cases hflush : u.phase = .txFlush
  · have hflushed : Abreast 1 u u (rxFlush u) (rxFlush u) :=
      ⟨⟨rfl, [.flush], rfl, rfl⟩, rfl, by simp [Event.isTx], rfl, rfl⟩
    rw [advance_txFlush u hrun hflush]
    simp only [State.stepsLeft, hflush]
    unfold flushStep
    dsimp only
    split
    · exact .raised _ hflushed
    · rw [buildFrame_eq]
      exact .goesOn (by exact hflushed.goesTo .txFrame) rfl (by simp [State.stepsLeft])
  by_cases hframe : u.phase = .txFrame
  · have hsends : ∃ v, Abreast 0 u u v v ∧ Machine.advance u = transmit v := by
      by_cases hf : ∃ p, p.length ≤ 100 ∧ u.txbuf = frameOf p
      · obtain ⟨p, hl, hb⟩ := hf
        rw [advance_txFrame u p hrun hframe hl hb, requestSent, sendFrame_of_le u hl]
        exact ⟨_, by exact (hself 0).goesTo .txFrame, rfl⟩
      · exact ⟨u, hself 0, advance_txFrame_raw u hrun hframe fun p hl hb => hf ⟨p, hl, hb⟩⟩
    obtain ⟨v, hv, hadvance⟩ := hsends
    simp only [State.stepsLeft, hframe, hadvance]
    exact hv.transmit rfl
  · exact (hself 1).advance rfl ht ht ⟨hk, stepsLeft_le_six hflush hframe⟩

/-- The two host commands with a register access: a sweep reads, WRITE_VALUE writes. -/
def State.accesses (s : State) : Prop :=
  s.task = .sweeping ∧ s.reqKind = .read ∨ s.task = .writing ∧ s.reqKind = .write

theorem afterAccess_of_access (h : u.access = s.access) : u.afterAccess = s.afterAccess := by
  simp only [State.access, State.untilLineEnds, State.besideLine, Prod.mk.injEq] at h
  simp only [State.afterAccess, State.entriesLeft, h]

/-- An error ends them (R105, R115). -/
theorem keepsTo_raise_access (e : Fail) (l : List Phase) (ht : u.task = .sweeping ∨ u.task = .writing) :
    KeepsTo l (raise e u) := by
  obtain ht | ht := ht
  · simp only [raise, ht]
    exact keepsTo_finishCmd _ _ _
  · rw [raise_writing e ht]
    exact keepsTo_finishCmd _ _ _

/-- Under a sweep a read returns to the decoding (R105). -/
theorem keepsTo_readReturn (p : List Byte) (ht : u.task = .sweeping) : KeepsTo u.afterAccess (readReturn p u) := by
  have hread : readReturn p u = { u with phase := .decode, rsp := some p } := by simp only [readReturn, ht]
  simp only [hread, State.afterAccess, ht]
  exact ⟨.refl _, nofun⟩

/-- Under WRITE_VALUE a write returns to its end (R107). -/
theorem keepsTo_writeReturn (l : List Phase) (ht : u.task = .writing) : KeepsTo l (writeReturn u) := by
  simp only [writeReturn, ht]
  exact keepsTo_finishCmd _ _ _

/-- The access goes on with fewer steps left, or ends: under a sweep the decoding is next. -/
theorem AccessStep.keepsTo {v t₂ : State} (h : AccessStep u v u.stepsLeft t t₂) (ha : u.accesses) :
    KeepsTo (transactionPhases.drop (9 - u.stepsLeft) ++ u.afterAccess) t := by
  have htask : u.task = .sweeping ∨ u.task = .writing := ha.imp And.left And.left
  cases h with
  | goesOn h _ hleft =>
    obtain ⟨hpos, hlt⟩ := hleft
    refine ⟨?_, fun hidle => ?_⟩
    · rw [course_of_access hpos, afterAccess_of_access h.accessLeft]
      exact (List.drop_sublist_drop_left _ (by omega)).append (.refl _)
    · rw [task_of_access h.accessLeft] at hidle
      simp [hidle] at htask
  | raised e h =>
    exact keepsTo_raise_access e _ (task_of_access h.accessLeft ▸ htask)
  | read p h hk =>
    rw [reqKind_of_access h.accessLeft] at hk
    obtain ⟨ht, -⟩ | ⟨-, hw⟩ := ha
    · have hback := keepsTo_readReturn p ((task_of_access h.accessLeft).trans ht)
      rw [afterAccess_of_access h.accessLeft] at hback
      exact hback.mono (List.sublist_append_right _ _)
    · exact absurd (hk.symm.trans hw) nofun
  | wrote h hk =>
    rw [reqKind_of_access h.accessLeft] at hk
    obtain ⟨-, hr⟩ | ⟨ht, -⟩ := ha
    · exact absurd (hk.symm.trans hr) nofun
    · exact keepsTo_writeReturn _ ((task_of_access h.accessLeft).trans ht)

/-- A step of an access leaves its phase behind. -/
theorem access_stepsOn (ha : u.accesses) (hk : 0 < u.stepsLeft) :
    ∃ l, u.course = u.phase :: l ∧ KeepsTo l (Machine.advance u) :=
  have htask : AccessTask u.task := ha.elim (fun h => .inr (.inr (.inl h.1))) (fun h => .inr (.inr (.inr h.1)))
  ⟨_, course_of_access_cons hk, (advance_accessStep htask hk).keepsTo ha⟩

theorem WriteRuns.stepsOn (h : WriteRuns s u) (hrun : u.task ≠ .idle) :
    ∃ l, u.course = u.phase :: l ∧ KeepsTo l (Machine.advance u) := by
  obtain ⟨-, hidle | ⟨ht, hk, hleft⟩⟩ := h
  · exact absurd hidle hrun
  · exact access_stepsOn (.inr ⟨ht, hk⟩) hleft

/-! GET_MEASUREMENTS (R105). -/

theorem entryPhases_succ (k : Nat) : entryPhases (k + 1) = transactionPhases ++ [.decode] ++ entryPhases k := rfl

/-- From entry i on the sweep has the entries behind it to read. -/
theorem keepsTo_sweepEntry (i : Nat) (ht : u.task = .sweeping) :
    KeepsTo (entryPhases (u.registry.length - i)) (sweepEntry i u) := by
  unfold sweepEntry
  split
  · exact keepsTo_finishCmd _ _ _
  · next d hd =>
    obtain ⟨hi, -⟩ := List.getElem?_eq_some_iff.1 hd
    unfold startRead
    split
    · exact keepsTo_raise_access _ _ (.inl (by exact ht))
    · rw [show u.registry.length - i = u.registry.length - (i + 1) + 1 by omega, entryPhases_succ]
      exact ⟨by simp [State.course, State.stepsLeft, State.afterAccess, State.entriesLeft, startTransaction, ht],
        by simp [startTransaction, ht]⟩

theorem SweepRuns.stepsOn (h : SweepRuns s u) (hrun : u.task ≠ .idle) :
    ∃ l, u.course = u.phase :: l ∧ KeepsTo l (Machine.advance u) := by
  obtain ⟨-, hidle | ⟨ht, hk, hleft | hp⟩⟩ := h
  · exact absurd hidle hrun
  · exact access_stepsOn (.inl ⟨ht, hk⟩) hleft
  · rw [advance_decode u hrun hp]
    refine ⟨entryPhases u.entriesLeft, by simp only [State.course, hp], ?_⟩
    unfold decodeStep
    split
    · next d rsp _ _ =>
      exact keepsTo_sweepEntry (u := { u with
        sweepMap := mapSet u.sweepMap d.name (.num (decodeKind d.kind (u.readData rsp))) }) (u.sweepIdx + 1) ht
    · exact keepsTo_finishCmd _ _ _

/-! Every command. -/

variable {c : HostCmd}

theorem CommandRuns.stepsOn (h : CommandRuns c s u) (hrun : u.task ≠ .idle) :
    ∃ l, u.course = u.phase :: l ∧ KeepsTo l (Machine.advance u) := by
  cases c with
  | openCmd path => exact OpenRuns.stepsOn h hrun
  | getMeasurements => exact SweepRuns.stepsOn h hrun
  | writeValue name v => exact WriteRuns.stepsOn h hrun
  | closeCmd => exact CloseRuns.stepsOn h hrun

/-- Its acceptance sets a command on its course, or ends it (R103). -/
theorem acceptCmd_keepsTo (c : HostCmd) (s : State) : KeepsTo (c.course s.registry.length) (acceptCmd c s) := by
  cases c with
  | openCmd path =>
    simp only [acceptCmd, acceptOpen]
    split
    · exact keepsTo_finishCmd _ _ _
    · exact ⟨.refl _, nofun⟩
  | getMeasurements =>
    simp only [acceptCmd, acceptSweep]
    split
    · exact keepsTo_finishCmd _ _ _
    · exact keepsTo_sweepEntry (u := { s with task := .sweeping, sweepMap := [] }) 0 rfl
  | writeValue name v =>
    simp only [acceptCmd, acceptWrite]
    split
    · exact keepsTo_finishCmd _ _ _
    · split
      · exact keepsTo_finishCmd _ _ _
      · split
        · split
          · exact keepsTo_finishCmd _ _ _
          · exact ⟨.refl _, nofun⟩
        · exact keepsTo_finishCmd _ _ _
  | closeCmd =>
    simp only [acceptCmd, acceptClose]
    split
    · exact keepsTo_finishCmd _ _ _
    · exact ⟨.refl _, nofun⟩

/-! ### A host command driven along its course to its end (R110, R116, R135) -/

/-- One step of a running command with the phases l before it: one of them is behind it. -/
theorem CommandRuns.tick_keepsTo (h : CommandRuns c s u) (hrun : u.task ≠ .idle) (hk : KeepsTo l u) :
    ∃ m, (u.phase :: m).Sublist l ∧ KeepsTo m (Machine.tick u) := by
  obtain ⟨m, hcourse, hm⟩ := h.stepsOn hrun
  exact ⟨m, hcourse ▸ hk.course, hm.endStep⟩

/-- In as many steps as it has phases before it a command is completed, with the interactions of these phases at
most. -/
theorem CommandRuns.drive_completed (n : Nat) (h : CommandRuns c s u) (hk : KeepsTo l u) (hn : l.length ≤ n) :
    (drive n u).completed ∧ Interacts (l.flatMap Phase.interaction) u (drive n u) := by
  induction n generalizing u l with
  | zero =>
    by_cases hidle : u.task = .idle
    · exact ⟨hk.ended hidle, .none rfl⟩
    · obtain ⟨m, hsub, -⟩ := h.tick_keepsTo hidle hk
      exact absurd (hsub.length_le.trans hn) (Nat.not_succ_le_zero _)
  | succ n ih =>
    by_cases hidle : u.task = .idle
    · rw [drive_done _ _ hidle]
      exact ⟨hk.ended hidle, .none rfl⟩
    · obtain ⟨m, hsub, hm⟩ := h.tick_keepsTo hidle hk
      obtain ⟨hdone, hrest⟩ := ih (h.tick hidle) hm (Nat.le_of_succ_le_succ (hsub.length_le.trans hn))
      rw [drive_more n u hidle]
      exact ⟨hdone, ((advance_interacts hidle).endStep.trans hrest).mono (hsub.flatMap Phase.interaction)⟩

end

/-- A sweep's interactions, counted entry by entry. -/
theorem countP_entryPhases (p : Event → Bool) (k : Nat) :
    ((entryPhases k).flatMap Phase.interaction).countP p =
      k * (transactionPhases.flatMap Phase.interaction).countP p := by
  induction k with
  | zero => simp [entryPhases]
  | succ k ih =>
    rw [entryPhases_succ, List.flatMap_append, List.flatMap_append, List.countP_append, List.countP_append, ih,
      Nat.succ_mul]
    simp only [List.flatMap_singleton, Phase.interaction, List.countP_nil]
    omega

/-- A command's course is no longer than the fuel it is run with (log 7). -/
theorem course_length_le (c : HostCmd) (s : State) : (c.course s.registry.length).length ≤ s.opFuel := by
  have hentries : (entryPhases s.registry.length).length = 9 * s.registry.length := by
    simp [entryPhases, transactionPhases, Nat.mul_comm]
  cases c with
  | getMeasurements => simp only [HostCmd.course, State.opFuel, hentries]; omega
  | openCmd path | writeValue name v | closeCmd =>
    simp [HostCmd.course, State.opFuel, handshakePhases, transactionPhases]; omega

/-- Settles O52: a command comes to its end along its course, whose interactions are R135's. -/
theorem commandsEndWithinBounds : Obligations.CommandsEndWithinBounds := by
  intro s c hp
  obtain ⟨⟨hphase, r, hres, herr⟩, new, htrace, hnew⟩ := (commandRuns_acceptCmd c s).endStep.drive_completed
    s.opFuel (acceptCmd_keepsTo c s).endStep (course_length_le c s)
  rw [endStep_trace, acceptCmd_trace] at htrace
  have hcount {p : Event → Bool} (h : ∀ e : Event, p e.shape = p e) := countP_le_of_shape h hnew
  have hopen := hcount (p := Event.isOpen) (by rintro ⟨⟩ <;> rfl)
  have htx := hcount (p := Event.isTx) (by rintro ⟨⟩ <;> rfl)
  have hrx := hcount (p := Event.isRx) (by rintro ⟨⟩ <;> rfl)
  have hflush := hcount (p := Event.isFlush) (by rintro ⟨⟩ <;> rfl)
  have hclose := hcount (p := Event.isClose) (by rintro ⟨⟩ <;> rfl)
  refine ⟨runCmd c s, new, r, exec_cmd s c hp, hphase, by simp [State.busy, runCmd, hphase], hres, herr, htrace,
    ?_, ?_, ?_, ?_⟩
  · rintro path rfl
    exact ⟨hopen, htx, hrx, hclose, Nat.le_zero.1 hflush⟩
  · rintro rfl
    rw [HostCmd.course, countP_entryPhases] at hflush htx hrx hopen hclose
    exact ⟨hflush.trans (Nat.mul_one _).le, htx.trans (Nat.mul_one _).le, hrx.trans (Nat.mul_comm _ 4).le,
      Nat.le_zero.1 hopen, Nat.le_zero.1 hclose⟩
  · rintro name v rfl
    exact ⟨hflush, htx, hrx, Nat.le_zero.1 hopen, Nat.le_zero.1 hclose⟩
  · rintro rfl
    exact ⟨hclose, (List.length_map _).ge.trans hnew.length_le⟩

end Sys2Proof.Machine
end
